-- ==== Sys2Proof/Word.lean ====
section
/-! DEFINITION. The word types of the NetSDR framing block (spec/00_scope.md R5, R8; spec/20_memory.md R26). -/

namespace Sys2Proof

/-- One byte of a request or a response: 8 bits, unsigned (R26). -/
abbrev Byte := BitVec 8

/-- The header's message type: 3 bits, 0 to 7 (R5, R38). -/
abbrev MsgType := BitVec 3

/-- The header's total length: 13 bits, 0 to 8191 (R5, R38). -/
abbrev MsgLength := BitVec 13

/-- A finite byte list in wire order: element 0 is the first byte on the wire (R9, R28). -/
abbrev Bytes := List Byte

end Sys2Proof
end

