-- ==== Sys2Proof/Syntax.lean ====
section
/-! DEFINITION. The operations of the block (one constructor per row of spec/opcode_table.json) and the request that
carries one over the interface (spec/10_state.md R20, R21; spec/30_encoding.md R50, R52). -/

namespace Sys2Proof

/-- An operation with its operands (R3, R21). The widths are R21's, so an operand that does not fit its width (R52)
cannot be written down. -/
inductive Instr where
  /-- ENC_HDR: encode (type, length) into the 2 header bytes (R56). -/
  | encHdr (type length : Int)
  /-- DEC_HDR: decode 2 header bytes into (type, length) (R58). -/
  | decHdr (hdr : Bytes)
  /-- SER_CI: serialize a control-item identifier (R63). -/
  | serCi (ci : BitVec 16)
  /-- SER_STATE: serialize the State Parameters block (R64). -/
  | serState (chanType stateType captureType numSamples : Byte)
  /-- SER_FREQ: serialize the Frequency Parameters block (R65). -/
  | serFreq (channelId : Byte) (freq : BitVec 64)
  /-- BUILD_SET_STATE: build the Run command (R70). -/
  | buildSetState (complex : BitVec 1) (captureMode numSamples : Byte)
  /-- BUILD_STOP: build the Idle command (R73). -/
  | buildStop
  /-- BUILD_SET_FREQ: build the set-frequency command (R74). -/
  | buildSetFreq (channelId : Byte) (freq : BitVec 64)
  /-- The table's row "(reserved)": a request whose selector `op` is 0x8 to 0xF (R51). -/
  | reserved (op : BitVec 4)
deriving DecidableEq, Repr

/-- A request as it stands at the interface: the 4-bit selector and every operand as a separate field of R21's width
(R20, R21, R50, R52). An operand two operations share by name and width is one field. An operation reads its own
operands only; a field left unwritten is 0, or the empty list, which makes 0 the default of BUILD_SET_STATE's
`num_samples` (R21). DESIGN CHOICE, log entry 1: the spec gives requests no byte layout. -/
structure Request where
  op          : BitVec 4
  type        : Int := 0
  length      : Int := 0
  hdr         : Bytes := []
  ci          : BitVec 16 := 0
  chanType    : Byte := 0
  stateType   : Byte := 0
  captureType : Byte := 0
  numSamples  : Byte := 0
  channelId   : Byte := 0
  freq        : BitVec 64 := 0
  complex     : BitVec 1 := 0
  captureMode : Byte := 0
deriving DecidableEq, Repr

end Sys2Proof
end

