-- ==== Sys2Proof/WellFormed.lean ====
section
/-! DEFINITION. When an operation is one the interface can carry (spec/30_encoding.md R50, R51). -/

namespace Sys2Proof

/-- `reserved` stands for the selectors 0x8 to 0xF only (R51); every other operand is of R21's width by its type. -/
def Instr.wf : Instr → Bool
  | .encHdr _ _ => true
  | .decHdr _ => true
  | .serCi _ => true
  | .serState _ _ _ _ => true
  | .serFreq _ _ => true
  | .buildSetState _ _ _ => true
  | .buildStop => true
  | .buildSetFreq _ _ => true
  | .reserved op => decide (8 ≤ op.toNat)

end Sys2Proof
end

