-- ==== Sys2Proof/Decode.lean ====
section
/-! DEFINITION. From a request to the operation it selects, and back (spec/30_encoding.md R50 to R54). -/

namespace Sys2Proof

/-- The operation a request selects (R50). Only the operands R21 lists for it are read; a reserved selector takes none
(R51, R80). Total: R50 and R51 give every selector a meaning, so there is nothing to reject. -/
def decode (q : Request) : Instr :=
  match q.op.toNat with
  | 0x0 => .encHdr q.type q.length
  | 0x1 => .decHdr q.hdr
  | 0x2 => .serCi q.ci
  | 0x3 => .serState q.chanType q.stateType q.captureType q.numSamples
  | 0x4 => .serFreq q.channelId q.freq
  | 0x5 => .buildSetState q.complex q.captureMode q.numSamples
  | 0x6 => .buildStop
  | 0x7 => .buildSetFreq q.channelId q.freq
  | _ => .reserved q.op

/-- The request that asks for an operation: its selector (R50) and its operands (R21), every other field unwritten. -/
def encode : Instr → Request
  | .encHdr t l => { op := 0b0000#4, type := t, length := l }
  | .decHdr h => { op := 0b0001#4, hdr := h }
  | .serCi c => { op := 0b0010#4, ci := c }
  | .serState ch st ct n => { op := 0b0011#4, chanType := ch, stateType := st, captureType := ct, numSamples := n }
  | .serFreq c f => { op := 0b0100#4, channelId := c, freq := f }
  | .buildSetState c m n => { op := 0b0101#4, complex := c, captureMode := m, numSamples := n }
  | .buildStop => { op := 0b0110#4 }
  | .buildSetFreq c f => { op := 0b0111#4, channelId := c, freq := f }
  | .reserved o => { op := o }

/-- A request with every field its selector does not read (R21, R80) left unwritten. -/
def Request.canonical (q : Request) : Request :=
  match q.op.toNat with
  | 0x0 => { op := q.op, type := q.type, length := q.length }
  | 0x1 => { op := q.op, hdr := q.hdr }
  | 0x2 => { op := q.op, ci := q.ci }
  | 0x3 => { op := q.op, chanType := q.chanType, stateType := q.stateType, captureType := q.captureType, numSamples := q.numSamples }
  | 0x4 => { op := q.op, channelId := q.channelId, freq := q.freq }
  | 0x5 => { op := q.op, complex := q.complex, captureMode := q.captureMode, numSamples := q.numSamples }
  | 0x7 => { op := q.op, channelId := q.channelId, freq := q.freq }
  | _ => { op := q.op }

/-- The request a word of spec/opcode_table.json stands for: its selector in bits 3..0, the only bits the table gives a
row, and every operand zero (`hdr` the two zero bytes of a zero header). DESIGN CHOICE, log entry 2. -/
def Request.ofTableWord (nbits w : Nat) : Request :=
  { op := BitVec.ofNat 4 (w % 2 ^ nbits), hdr := [0x00#8, 0x00#8] }

/-- The operation the decoder reads from a word of the table; a word too short for the selector holds none (log entry 2). -/
def decodeTableWord (nbits w : Nat) : Option Instr :=
  if nbits < 4 then none else some (decode (Request.ofTableWord nbits w))

end Sys2Proof
end

