-- ==== Sys2Proof/Config.lean ====
section
/-! DEFINITION. What the spec leaves to the implementation: the two open parameters of spec/00_scope.md R6, and the
order in which overlapping requests are answered (spec/20_memory.md R35; spec/70_reset_and_hazards.md R98). -/

namespace Sys2Proof

/-- The two parameters, fixed for the whole life of the block (R6, R19). A state carries them as the model's argument
(log entry 3). -/
structure Params where
  /-- `STRICT_ENUMS`: whether an enum operand outside its listed members is rejected (R6, R67). -/
  strictEnums   : Bool
  /-- `CAPTURE_FIFO16`: the captureType code of the FIFO 16-bit capture mode (R6, R72). -/
  captureFifo16 : Byte
deriving DecidableEq, Repr

/-- The constraint `CAPTURE_FIFO16 != 0x80` (R6, R94). -/
def Params.wf (p : Params) : Bool := p.captureFifo16 != 0x80#8

namespace Config

/-- The value of `STRICT_ENUMS` in the block at hand: OPEN (R6, decision D6), so a constant with no body. -/
opaque strictEnums : Bool

/-- Which of the 255 legal codes `CAPTURE_FIFO16` is in the block at hand: OPEN (R6, decision D9), so a constant with
no body. -/
opaque fifoIndex : Fin 255

/-- The legal codes in rising order, 0x80 left out (R6). -/
def fifoCode (i : Fin 255) : Byte :=
  if i.val < 0x80 then BitVec.ofNat 8 i.val else BitVec.ofNat 8 (i.val + 1)

/-- The parameters of the block at hand. -/
def params : Params := { strictEnums := strictEnums, captureFifo16 := fifoCode fifoIndex }

/-- FREE VALUE, log entry 4: which of several overlapping requests is answered next. The spec promises no order (R35),
so this is a constant with no body, applied to the count of transactions so far and to the requests waiting. -/
opaque serviceOrder : Nat → List Request → Nat

/-- FREE VALUE, log entry 4: how many other requests may be answered before the one that has now become the oldest. Every
request gets its response after a finite time (R98), and the spec gives no bound, so this is a constant with no body,
applied to the count of transactions and to the requests waiting when that request becomes the oldest; for one that comes
when none waits, to the empty list and the count at the latest transaction or reset. -/
opaque patience : Nat → List Request → Nat

end Config

end Sys2Proof
end

