-- ==== Sys2Proof/Machine/Operands.lean ====
section
/-! DEFINITION. The named values, the byte order and the bit fields of the wire formats (spec/00_scope.md R7 to R9,
spec/20_memory.md R27 to R29, spec/30_encoding.md R38 to R47). `v.extractLsb' lo n` is R7's `v[lo+n-1 : lo]`. -/

namespace Sys2Proof.Machine

/-! Named values (R42, R45, R47, R55). -/

def SetState : BitVec 16 := 0x0018#16
def SetFrequency : BitVec 16 := 0x0020#16
def Idle : Byte := 0x01#8
def Run : Byte := 0x02#8
def Channel1 : Byte := 0x00#8
def Channel2 : Byte := 0x02#8
def DataComplex : BitVec 1 := 1#1
def DataReal : BitVec 1 := 0#1
def Continuous24bit : Byte := 0x80#8

/-- The message type of every command: 0, "host command" (R48, R53). -/
def HostCommand : Int := 0

/-! The listed members of the checked enum operands (R67). -/

def listedControlItem (ci : BitVec 16) : Bool := ci == SetState || ci == SetFrequency
def listedStateType (st : Byte) : Bool := st == Idle || st == Run
def listedChannelId (c : Byte) : Bool := c == Channel1 || c == Channel2

/-! Little-endian byte lists (R9, R27). -/

/-- `LE16(v)` (R9). -/
def le16 (v : BitVec 16) : Bytes := [v.extractLsb' 0 8, v.extractLsb' 8 8]

/-- `LE40(v)` (R9). -/
def le40 (v : BitVec 40) : Bytes :=
  [v.extractLsb' 0 8, v.extractLsb' 8 8, v.extractLsb' 16 8, v.extractLsb' 24 8, v.extractLsb' 32 8]

/-- `trunc_40(freq)`: the frequency field written is `freq mod 2^40` (R66). -/
def trunc40 (freq : BitVec 64) : BitVec 40 := freq.setWidth 40

/-! The header's fields (R38 to R41). -/

/-- The 16-bit header value `H = length | (type << 13)` (R39). -/
def packHeader (t : MsgType) (l : MsgLength) : BitVec 16 := l.setWidth 16 ||| (t.setWidth 16 <<< 13)

/-- `length = b0 | (b1[4:0] << 8)` (R41; spec/90_conflicts.md C1). -/
def headerLength (b0 b1 : Byte) : MsgLength := b0.setWidth 13 ||| ((b1.extractLsb' 0 5).setWidth 13 <<< 8)

/-- `type = b1[7:5]` (R41). -/
def headerType (b1 : Byte) : MsgType := b1.extractLsb' 5 3

/-! The builders' derived fields. -/

/-- channelType: bit 7 set iff complex data, bits 6..0 zero (R44, R71). -/
def channelType (complex : BitVec 1) : Byte := if complex == DataComplex then 0x80#8 else 0x00#8

/-- numberSamples: kept for the FIFO 16-bit capture mode, else forced to 0 (R46, R72). -/
def forcedNumSamples (p : Params) (captureMode numSamples : Byte) : Byte :=
  if captureMode == p.captureFifo16 then numSamples else 0x00#8

end Sys2Proof.Machine
end

