-- ==== Sys2Proof/Machine/State.lean ====
section
/-! DEFINITION. The state of the model. The block itself is stateless (spec/10_state.md R14, R15): what stands here is
its parameters (R6) and its interface, the requests and the response (R20 to R22), with the reset input (R91 to R93). -/

namespace Sys2Proof.Machine

/-- The error codes (spec/60_exceptions.md R77). An error carries nothing but its code (R82). -/
inductive ErrorCode where
  /-- An operand out of range, or under `STRICT_ENUMS` outside its listed members (R78). -/
  | invalidArgument
  /-- DEC_HDR given other than 2 bytes (R79). -/
  | malformedFrame
  /-- A reserved selector (R80). -/
  | illegalOperation
deriving DecidableEq, Repr

/-- The response to a request, in exactly one of three forms (spec/10_state.md R22). -/
inductive Response where
  | bytes (s : Bytes)
  | header (t : MsgType) (l : MsgLength)
  | error (e : ErrorCode)
deriving DecidableEq, Repr

/-- The block cannot stop: a failure is an error response of the same transaction (R85), and every request gets its
response (R98). So no fault exists, and this type has no constructor (log entry 8). -/
inductive Fault where
deriving DecidableEq, Repr

/-- Why an operation would have no meaning in this model. -/
inductive Refusal where
  /-- Raised by an arm of `exec` whose operation has no meaning yet; no arm does so. Safe. -/
  | notModelled (mnemonic : String)
deriving DecidableEq, Repr

/-- The parameters, and the block's interface as plain data. -/
structure State where
  /-- The two parameters the model takes as an argument (R6, R19); no step changes them. -/
  params    : Params
  /-- The requests issued and not yet answered (R20, R35, R90), in the order they were issued. -/
  pending   : List Request
  /-- The reset input (R91, R92): asserted from outside, sampled and cleared by the next step (log entry 7). -/
  resetLine : Bool
  /-- The request of the latest transaction (R20); none before the first (log entry 6). -/
  request   : Option Request
  /-- The response of the latest transaction (R20, R22); none before the first (log entry 6). -/
  response  : Option Response
  /-- The model's own: the count of transactions, which the free value `Config.serviceOrder` is applied to (log entry 4). -/
  turn      : Nat
  /-- The model's own: how many more times the oldest waiting request may be passed over (R98; log entry 4). -/
  patience  : Nat
deriving DecidableEq, Repr

/-- The machine right after reset. The spec gives no reset value, there being no state (R24, R91); the parameters are
those of the block at hand, which reset does not change (R93); nothing has been requested or answered. `turn` is 0 by
DESIGN CHOICE, and `patience` is the free value of the first request to wait (log entry 4). -/
def State.reset : State where
  params := Config.params
  pending := []
  resetLine := false
  request := none
  response := none
  turn := 0
  patience := Config.patience 0 []

end Sys2Proof.Machine
end

