-- ==== Sys2Proof/Machine/Ops.lean ====
section
/-! DEFINITION. The operations every meaning shares: giving the response (spec/00_scope.md R10, R11), which for an error
is all that "taking an exception" is on this block (spec/60_exceptions.md R85, R86), and the interface's side of a
transaction (spec/10_state.md R20; spec/20_memory.md R35; spec/70_reset_and_hazards.md R91 to R93). -/

namespace Sys2Proof.Machine

/-- What a byte-producing operation gives: its bytes, or the error it raises (R10). -/
abbrev Result := Except ErrorCode Bytes

/-- The response of a byte-producing operation (R22): `return Bytes(s)` or `raise E`. -/
def Response.ofResult : Result → Response
  | .ok s => .bytes s
  | .error e => .error e

/-- Give the response of the transaction, and change nothing else (R11, R20, R33). -/
def State.respond (s : State) (r : Response) : State := { s with response := some r }

/-- End a byte-producing operation with its result (R10, R22). An error is an ordinary response: nothing is saved, no
mode changes and control is not transferred (R85). -/
def reply (r : Result) (s : State) : Host.Outcome State Fault Refusal := .next (s.respond (.ofResult r))

/-- `raise E` (R10, R85): end the operation with `Error(E)`, with no bytes and no fields (R32, R82). -/
def raise (e : ErrorCode) (s : State) : Host.Outcome State Fault Refusal := .next (s.respond (.error e))

/-- `return Header(t, l)` (R10, R22). -/
def returnHeader (h : MsgType × MsgLength) (s : State) : Host.Outcome State Fault Refusal :=
  .next (s.respond (.header h.1 h.2))

/-- A requester issues a request (R20): it joins the requests not yet answered. Done from outside, between steps. -/
def State.issue (s : State) (q : Request) : State := { s with pending := s.pending ++ [q] }

/-- Requesters issue several requests between two steps (R90), in this order. -/
def State.issueAll (s : State) (qs : List Request) : State := qs.foldl State.issue s

/-- The outside asserts reset (R91). Done from outside, between steps. -/
def State.assertReset (s : State) : State := { s with resetLine := true }

/-- Reset occurs: the requests in progress get no response (R92), and nothing of the block changes (R91, R93). DESIGN CHOICE
(log entry 7): every waiting request counts as in progress. DESIGN CHOICE (log entry 4): how often the first request after
the reset may be passed over, which the spec leaves open, is a free value of its own and not what the dropped oldest
request had left. -/
def State.takeReset (s : State) : State :=
  { s with pending := [], resetLine := false, patience := Config.patience s.turn [] }

/-- Which waiting request is answered next. With several waiting the spec promises no order (R35), and the choice is the
free value `Config.serviceOrder`; but each gets its response after a finite time (R98), so the oldest, which stands first,
is answered once its patience is spent (log entry 4). -/
def State.serviceIndex (s : State) : Nat :=
  match s.pending with
  | [] => 0
  | [_] => 0
  | q :: r :: rest =>
    if s.patience = 0 then 0 else Config.serviceOrder s.turn (q :: r :: rest) % (rest.length + 2)

/-- The patience left after the request at place `k` is taken: the next oldest request has a patience of its own, and an
oldest request that is passed over has one less (R98; log entry 4). -/
def State.patienceAfter (s : State) (k : Nat) : Nat :=
  if k = 0 then Config.patience (s.turn + 1) (s.pending.eraseIdx k) else s.patience - 1

/-- Begin the transaction of the waiting request `q` at place `k` (R20): it no longer waits, and its response is yet to
be given. -/
def State.accept (s : State) (k : Nat) (q : Request) : State :=
  { s with pending := s.pending.eraseIdx k, request := some q, response := none, turn := s.turn + 1, patience := s.patienceAfter k }

end Sys2Proof.Machine
end

