-- ==== Sys2Proof/Machine/HeaderCodec.lean ====
section
/-! DEFINITION. The header codec: ENC_HDR and DEC_HDR (spec/41_header_codec.md). -/

namespace Sys2Proof.Machine

/-- The pseudocode of ENC_HDR (R56): both range checks in order, then `LE16(length | (type << 13))`. -/
def encHdr (type length : Int) : Result :=
  if ¬ (0 ≤ type ∧ type ≤ 7) then .error .invalidArgument
  else if ¬ (0 ≤ length ∧ length ≤ 8191) then .error .invalidArgument
  else .ok (le16 (packHeader (BitVec.ofInt 3 type) (BitVec.ofInt 13 length)))

/-- The pseudocode of DEC_HDR (R58), with the layout of R41. -/
def decHdr : Bytes → Except ErrorCode (MsgType × MsgLength)
  | [b0, b1] => .ok (headerType b1, headerLength b0 b1)
  | _ => .error .malformedFrame

/-- The meaning of ENC_HDR (R56). -/
def execEncHdr (type length : Int) (s : State) : Host.Outcome State Fault Refusal := reply (encHdr type length) s

/-- The meaning of DEC_HDR (R58). -/
def execDecHdr (hdr : Bytes) (s : State) : Host.Outcome State Fault Refusal :=
  match decHdr hdr with
  | .ok h => returnHeader h s
  | .error e => raise e s

end Sys2Proof.Machine
end

