-- ==== Sys2Proof/Machine/Serializers.lean ====
section
/-! DEFINITION. The control-item and parameter serializers: SER_CI, SER_STATE, SER_FREQ
(spec/42_item_and_parameter_serializers.md). -/

namespace Sys2Proof.Machine

/-- The pseudocode of SER_CI (R63). -/
def serCi (p : Params) (ci : BitVec 16) : Result :=
  if !listedControlItem ci && p.strictEnums then .error .invalidArgument else .ok (le16 ci)

/-- The pseudocode of SER_STATE (R64); the layout is R43's. -/
def serState (p : Params) (chanType stateType captureType numSamples : Byte) : Result :=
  if !listedStateType stateType && p.strictEnums then .error .invalidArgument
  else .ok [chanType, stateType, captureType, numSamples]

/-- The pseudocode of SER_FREQ (R65, R66); the layout is R47's. -/
def serFreq (p : Params) (channelId : Byte) (freq : BitVec 64) : Result :=
  if !listedChannelId channelId && p.strictEnums then .error .invalidArgument
  else .ok ([channelId] ++ le40 (trunc40 freq))

/-- The meaning of SER_CI (R63). -/
def execSerCi (ci : BitVec 16) (s : State) : Host.Outcome State Fault Refusal := reply (serCi s.params ci) s

/-- The meaning of SER_STATE (R64). -/
def execSerState (chanType stateType captureType numSamples : Byte) (s : State) : Host.Outcome State Fault Refusal :=
  reply (serState s.params chanType stateType captureType numSamples) s

/-- The meaning of SER_FREQ (R65). -/
def execSerFreq (channelId : Byte) (freq : BitVec 64) (s : State) : Host.Outcome State Fault Refusal :=
  reply (serFreq s.params channelId freq) s

end Sys2Proof.Machine
end

