-- ==== Sys2Proof/Machine/Builders.lean ====
section
/-! DEFINITION. Command assembly: BUILD_SET_STATE, BUILD_STOP, BUILD_SET_FREQ (spec/43_command_assembly.md). -/

namespace Sys2Proof.Machine

/-- `CMD(ci, p)` (R68): header, control item, parameters. An error of a part is returned as is, and the first part that
raises decides (R68, R83). -/
def cmd (p : Params) (ci : BitVec 16) (parameters : Bytes) : Result :=
  match encHdr HostCommand (4 + parameters.length) with
  | .error e => .error e
  | .ok h =>
    match serCi p ci with
    | .error e => .error e
    | .ok c => .ok (h ++ c ++ parameters)

/-- The end every builder has (R68): the parameter block's error as it is, or the command that carries the block. -/
def command (p : Params) (ci : BitVec 16) : Result → Result
  | .error e => .error e
  | .ok block => cmd p ci block

/-- The pseudocode of BUILD_SET_STATE (R70 to R72). -/
def buildSetState (p : Params) (complex : BitVec 1) (captureMode numSamples : Byte) : Result :=
  command p SetState
    (serState p (channelType complex) Run captureMode (forcedNumSamples p captureMode numSamples))

/-- The pseudocode of BUILD_STOP (R73). -/
def buildStop (p : Params) : Result := command p SetState (serState p 0x00#8 Idle 0x00#8 0x00#8)

/-- The pseudocode of BUILD_SET_FREQ (R74). -/
def buildSetFreq (p : Params) (channelId : Byte) (freq : BitVec 64) : Result :=
  command p SetFrequency (serFreq p channelId freq)

/-- The meaning of BUILD_SET_STATE (R70). -/
def execBuildSetState (complex : BitVec 1) (captureMode numSamples : Byte) (s : State) :
    Host.Outcome State Fault Refusal :=
  reply (buildSetState s.params complex captureMode numSamples) s

/-- The meaning of BUILD_STOP (R73). -/
def execBuildStop (s : State) : Host.Outcome State Fault Refusal := reply (buildStop s.params) s

/-- The meaning of BUILD_SET_FREQ (R74). -/
def execBuildSetFreq (channelId : Byte) (freq : BitVec 64) (s : State) : Host.Outcome State Fault Refusal :=
  reply (buildSetFreq s.params channelId freq) s

end Sys2Proof.Machine
end

