-- ==== Sys2Proof/Machine/ReservedOps.lean ====
section
/-! DEFINITION. The reserved selectors 0x8 to 0xF (spec/30_encoding.md R51; spec/60_exceptions.md R80). -/

namespace Sys2Proof.Machine

/-- The meaning of a reserved selector (R51): the response `Error(IllegalOperation)` and no other effect. Which of the
reserved selectors it is makes no difference. -/
def execReserved (_op : BitVec 4) (s : State) : Host.Outcome State Fault Refusal := raise .illegalOperation s

end Sys2Proof.Machine
end

