-- ==== Sys2Proof/Machine/Dispatch.lean ====
section
/-! DEFINITION. One arm per operation: the meaning of each row of spec/opcode_table.json. -/

namespace Sys2Proof.Machine

def exec (i : Instr) (s : State) : Host.Outcome State Fault Refusal :=
  match i with
  | .encHdr type length => Sys2Proof.Machine.execEncHdr type length s
  | .decHdr hdr => Sys2Proof.Machine.execDecHdr hdr s
  | .serCi ci => Sys2Proof.Machine.execSerCi ci s
  | .serState chanType stateType captureType numSamples => Sys2Proof.Machine.execSerState chanType stateType captureType numSamples s
  | .serFreq channelId freq => Sys2Proof.Machine.execSerFreq channelId freq s
  | .buildSetState complex captureMode numSamples => Sys2Proof.Machine.execBuildSetState complex captureMode numSamples s
  | .buildStop => Sys2Proof.Machine.execBuildStop s
  | .buildSetFreq channelId freq => Sys2Proof.Machine.execBuildSetFreq channelId freq s
  | .reserved op => Sys2Proof.Machine.execReserved op s

end Sys2Proof.Machine
end

