-- ==== Sys2Proof/Machine/Step.lean ====
section
/-! DEFINITION. One step of the block: one whole transaction (spec/10_state.md R20; spec/70_reset_and_hazards.md R97). -/

namespace Sys2Proof.Machine

/-- One step. Reset, if asserted, occurs (R91 to R93). Otherwise one waiting request gets its response, in one atomic
step (R20, R97). With nothing waiting, nothing happens (R17; log entry 5). -/
def step (s : State) : Host.Outcome State Fault Refusal :=
  if s.resetLine then .next s.takeReset
  else
    match s.pending[s.serviceIndex]? with
    | none => .next s
    | some q => exec (decode q) (s.accept s.serviceIndex q)

/-- The state in which the request of a table word is the only one waiting and reset is not asserted, so that the next
step answers exactly it (log entry 2). -/
def State.withFetchWord (s : State) (nbits w : Nat) : State :=
  { s with pending := [Request.ofTableWord nbits w], resetLine := false }

end Sys2Proof.Machine
end

