-- ==== Sys2Proof/Machine/Assembler.lean ====
section
/-! DEFINITION. The assembler syntax of spec/30_encoding.md R55, at the level of its tokens: a line is a mnemonic and its
operands; a numeral, decimal or hexadecimal, is the integer it denotes (log entry 9). -/

namespace Sys2Proof.Machine

/-- The symbols of R55. -/
inductive AsmSymbol where
  | setState | setFrequency | idle | run | channel1 | channel2 | complex | real | continuous24bit | fifo16bit
deriving DecidableEq, Repr

/-- A numeral or a symbol (R55). -/
inductive AsmScalar where
  | num (v : Int)
  | sym (s : AsmSymbol)
deriving DecidableEq, Repr

/-- An operand: a numeral, a symbol, or DEC_HDR's list in brackets (R55). -/
inductive AsmOperand where
  | scalar (a : AsmScalar)
  | list (as : List AsmScalar)
deriving DecidableEq, Repr

/-- The mnemonics of R55, `buildSetFreq1` being its one pseudo-instruction. -/
inductive AsmMnemonic where
  | encHdr | decHdr | serCi | serState | serFreq | buildSetState | buildStop | buildSetFreq | buildSetFreq1
deriving DecidableEq, Repr

/-- The value of a symbol (R42, R45, R47, R55); `FIFO16bit` is the parameter `CAPTURE_FIFO16`. -/
def AsmSymbol.value (p : Params) : AsmSymbol → Nat
  | .setState => SetState.toNat
  | .setFrequency => SetFrequency.toNat
  | .idle => Idle.toNat
  | .run => Run.toNat
  | .channel1 => Channel1.toNat
  | .channel2 => Channel2.toNat
  | .complex => DataComplex.toNat
  | .real => DataReal.toNat
  | .continuous24bit => Continuous24bit.toNat
  | .fifo16bit => p.captureFifo16.toNat

/-- The integer an operand denotes. -/
def AsmScalar.value (p : Params) : AsmScalar → Int
  | .num v => v
  | .sym s => s.value p

/-- An operand of fixed width `n` is a value `0 <= v < 2^n` (R52); any other is no operand of that width (log entry 9). -/
def AsmScalar.bits (p : Params) (n : Nat) (a : AsmScalar) : Option (BitVec n) :=
  if 0 ≤ a.value p ∧ a.value p < 2 ^ n then some (BitVec.ofInt n (a.value p)) else none

/-- A bracketed list of bytes (R55). -/
def asmBytes (p : Params) : List AsmScalar → Option Bytes
  | [] => some []
  | a :: as => do
    let b ← a.bits p 8
    let bs ← asmBytes p as
    return b :: bs

/-- The request of a line of R55, or none where the line is not of one of its forms. A BUILD_SET_STATE without
`<num_samples>` has 0 there. -/
def assemble (p : Params) : AsmMnemonic → List AsmOperand → Option Request
  | .encHdr, [.scalar t, .scalar l] => some { op := 0x0#4, type := t.value p, length := l.value p }
  | .decHdr, [.list h] => do
    let bs ← asmBytes p h
    return { op := 0x1#4, hdr := bs }
  | .serCi, [.scalar c] => do
    let ci ← c.bits p 16
    return { op := 0x2#4, ci := ci }
  | .serState, [.scalar ch, .scalar st, .scalar ct, .scalar n] => do
    let chanType ← ch.bits p 8
    let stateType ← st.bits p 8
    let captureType ← ct.bits p 8
    let numSamples ← n.bits p 8
    return { op := 0x3#4, chanType := chanType, stateType := stateType, captureType := captureType, numSamples := numSamples }
  | .serFreq, [.scalar c, .scalar f] => do
    let channelId ← c.bits p 8
    let freq ← f.bits p 64
    return { op := 0x4#4, channelId := channelId, freq := freq }
  | .buildSetState, [.scalar c, .scalar m] => do
    let complex ← c.bits p 1
    let captureMode ← m.bits p 8
    return { op := 0x5#4, complex := complex, captureMode := captureMode }
  | .buildSetState, [.scalar c, .scalar m, .scalar n] => do
    let complex ← c.bits p 1
    let captureMode ← m.bits p 8
    let numSamples ← n.bits p 8
    return { op := 0x5#4, complex := complex, captureMode := captureMode, numSamples := numSamples }
  | .buildStop, [] => some { op := 0x6#4 }
  | .buildSetFreq, [.scalar c, .scalar f] => do
    let channelId ← c.bits p 8
    let freq ← f.bits p 64
    return { op := 0x7#4, channelId := channelId, freq := freq }
  | .buildSetFreq1, [.scalar f] => do
    let freq ← f.bits p 64
    return { op := 0x7#4, channelId := Channel1, freq := freq }
  | _, _ => none

end Sys2Proof.Machine
end

