-- ==== Sys2Proof/Machine/Flags.lean ====
section
/-! DEFINITION. The block has no flags (spec/10_state.md R18): whether an operation succeeded is part of its response.
What a response says of success is read off here, with the numbers of spec/60_exceptions.md R77. -/

namespace Sys2Proof.Machine

/-- The number of an error (R77). The numbers are the spec's own, and no claim should depend on them (decision D5). -/
def ErrorCode.code : ErrorCode → Nat
  | .invalidArgument => 1
  | .malformedFrame => 2
  | .illegalOperation => 3

/-- The code of a response: 0 is success (R77). -/
def Response.code : Response → Nat
  | .bytes _ => 0
  | .header _ _ => 0
  | .error e => e.code

/-- The CONSUMER's verdict on a decoded reply header, outside the block: a negative acknowledgement iff the length is 2
(R61). The block never computes it; it is here so that the vectors about it can be checked. -/
def Response.consumerNak : Response → Option Bool
  | .header _ l => some (l == 2#13)
  | .bytes _ => none
  | .error _ => none

end Sys2Proof.Machine
end

