-- ==== Sys2Proof/Safety.lean ====
section
/-! DEFINITION. The terms in which statements about the block are made: which responses an operation may have
(spec/20_memory.md R31, spec/60_exceptions.md R77 to R80), what it is for a response to be the one a request's rule gives
(spec/10_state.md R14), the transactions of a run, and the invariant of the model. -/

namespace Sys2Proof

open Machine

/-- The number of bytes an operation outputs on success (R31); DEC_HDR outputs none, and a reserved selector never
succeeds. -/
def Instr.outputLength : Instr → Option Nat
  | .encHdr _ _ => some 2
  | .decHdr _ => none
  | .serCi _ => some 2
  | .serState _ _ _ _ => some 4
  | .serFreq _ _ => some 6
  | .buildSetState _ _ _ => some 8
  | .buildStop => some 8
  | .buildSetFreq _ _ => some 10
  | .reserved _ => none

/-- The errors an operation may raise (R77; the "errors" column of spec/opcode_table.json). -/
def Instr.errors : Instr → List ErrorCode
  | .encHdr _ _ => [.invalidArgument]
  | .decHdr _ => [.malformedFrame]
  | .serCi _ => [.invalidArgument]
  | .serState _ _ _ _ => [.invalidArgument]
  | .serFreq _ _ => [.invalidArgument]
  | .buildSetState _ _ _ => []
  | .buildStop => []
  | .buildSetFreq _ _ => [.invalidArgument]
  | .reserved _ => [.illegalOperation]

/-- Whether an operation answers with a header (R22: DEC_HDR alone does). -/
def Instr.answersHeader : Instr → Bool
  | .decHdr _ => true
  | .encHdr _ _ => false
  | .serCi _ => false
  | .serState _ _ _ _ => false
  | .serFreq _ _ => false
  | .buildSetState _ _ _ => false
  | .buildStop => false
  | .buildSetFreq _ _ => false
  | .reserved _ => false

namespace Safety

/-- A response an operation may have at all (R22, R31, R77). -/
def Fits (i : Instr) : Response → Prop
  | .bytes s => i.outputLength = some s.length
  | .header _ _ => i.answersHeader = true
  | .error e => e ∈ i.errors

/-- The response that operation `i` has under the parameters `p`, in every state of the block (R11, R14). -/
def Answers (p : Params) (i : Instr) (r : Response) : Prop :=
  ∀ u : State, u.params = p → exec i u = .next { u with response := some r }

/-- The invariant: the parameters are legal (R6, R94), and the latest transaction, if there is one, has exactly one
response, the one the rule of its request gives (R14, R20). -/
def Inv (s : State) : Prop :=
  s.params.wf = true ∧
    match s.request, s.response with
    | none, none => True
    | some q, some r => Answers s.params (decode q) r ∧ Fits (decode q) r
    | none, some _ => False
    | some _, none => False

/-- The transaction that a step from `s` to `t` is, if it is one: neither a reset nor an idle step. -/
def transaction (s t : State) : List (Request × Response) :=
  if s.resetLine || s.pending.isEmpty then []
  else
    match t.request, t.response with
    | some q, some r => [(q, r)]
    | none, _ => []
    | some _, none => []

/-- The request now at place `j` of those waiting is answered within `n` steps, while the requesters issue the requests
`arrivals 0` before the first of them, `arrivals 1` before the second, and so on. Each step answers the request at the
place the block serves, with the response of that request's rule; the request that is followed moves one place forward
when one before it is answered. -/
def AnsweredWithin : Nat → (Nat → List Request) → Nat → State → Prop
  | 0, _, _, _ => False
  | n + 1, arrivals, j, s =>
    let u := s.issueAll (arrivals 0)
    let k := u.serviceIndex
    ∃ q r t, u.pending[k]? = some q ∧ step u = .next t ∧
      t.pending = u.pending.eraseIdx k ∧ t.request = some q ∧ t.response = some r ∧ Answers s.params (decode q) r ∧
      (k = j ∨ AnsweredWithin n (fun m => arrivals (m + 1)) (if k < j then j - 1 else j) t)

/-- The transactions of the next `n` steps, in the order they happen. -/
def transactions : Nat → State → List (Request × Response)
  | 0, _ => []
  | n + 1, s =>
    match step s with
    | .next t => transaction s t ++ transactions n t
    | .fault _ => []
    | .refused _ => []

end Safety

end Sys2Proof
end

