-- ==== Sys2Proof/Certificates/Slice0/Obligations.lean ====
section
/-! DEFINITION. The statements for the provers. `exec i s = .next { s with response := some r }` says three things at
once: the operation completes, its response is `r`, and nothing else of the state changes (the frame). -/

open Sys2Proof Sys2Proof.Machine Sys2Proof.Safety

/-! ## Selecting an operation -/

/-- R50's table: each selector chooses its operation, with the operands R21 lists; 0x8 to 0xF are reserved. -/
def Obligations.SelectorChoosesOperation : Prop :=
  ∀ q : Request,
    (q.op = 0x0#4 → decode q = .encHdr q.type q.length) ∧
    (q.op = 0x1#4 → decode q = .decHdr q.hdr) ∧
    (q.op = 0x2#4 → decode q = .serCi q.ci) ∧
    (q.op = 0x3#4 → decode q = .serState q.chanType q.stateType q.captureType q.numSamples) ∧
    (q.op = 0x4#4 → decode q = .serFreq q.channelId q.freq) ∧
    (q.op = 0x5#4 → decode q = .buildSetState q.complex q.captureMode q.numSamples) ∧
    (q.op = 0x6#4 → decode q = .buildStop) ∧
    (q.op = 0x7#4 → decode q = .buildSetFreq q.channelId q.freq) ∧
    (8 ≤ q.op.toNat → decode q = .reserved q.op)

/-- Decoding the encoding of a well-formed operation gives it back, whatever its operands (R21, R50). -/
def Obligations.DecodeOfEncodeIsIdentity : Prop :=
  ∀ i : Instr, i.wf = true → decode (encode i) = i

/-- R21: an operand not listed for an operation does not exist for it. Every request decodes to a well-formed operation,
encoding that gives the request less its unlisted operands, and two requests mean the same exactly when they agree
once those are left out. That a request is a record of fields, and that one left out stands at 0 or the empty list, is the
model's choice (log entry 1). -/
def Obligations.DecodeReadsListedOperandsOnly : Prop :=
  ∀ q : Request, (decode q).wf = true ∧ encode (decode q) = q.canonical ∧
    ∀ q' : Request, decode q = decode q' ↔ q.canonical = q'.canonical

/-- Selectors written out from R50 decode to what they stand for. The zero operands of a table word are the model's
choice (log entry 2). -/
def Obligations.WrittenSelectorsDecode : Prop :=
  decodeTableWord 8 0b0000 = some (.encHdr 0 0) ∧
  decodeTableWord 8 0b0001 = some (.decHdr [0x00#8, 0x00#8]) ∧
  decodeTableWord 8 0b0011 = some (.serState 0#8 0#8 0#8 0#8) ∧
  decodeTableWord 8 0b0111 = some (.buildSetFreq 0#8 0#64) ∧
  decodeTableWord 8 0b1001 = some (.reserved 0b1001#4) ∧
  decode { op := 0b0101#4, complex := 1#1, captureMode := 0x80#8 } = .buildSetState 1#1 0x80#8 0x00#8

/-! ## The assembler syntax of R55 -/

/-- R55: the pseudo-instruction expands to BUILD_SET_FREQ of Channel1, and `<num_samples>` left out is 0. -/
def Obligations.PseudoAndDefaultExpand : Prop :=
  ∀ (p : Params) (f c m : AsmScalar),
    assemble p .buildSetFreq1 [.scalar f] = assemble p .buildSetFreq [.scalar (.sym .channel1), .scalar f] ∧
    assemble p .buildSetState [.scalar c, .scalar m] =
      assemble p .buildSetState [.scalar c, .scalar m, .scalar (.num 0)]

/-- R55: under its own mnemonic, every operation with every operand can be written as a line, and the line assembles to the
operation's request. That a line is its tokens is log entry 9, that a request leaves its unlisted operands at 0 or the
empty list is log entry 1. -/
def Obligations.EveryOperationCanBeWritten : Prop :=
  ∀ p : Params,
    (∀ t l : Int, assemble p .encHdr [.scalar (.num t), .scalar (.num l)] = some (encode (.encHdr t l))) ∧
    (∀ h : Bytes, assemble p .decHdr [.list (h.map fun b => .num b.toNat)] = some (encode (.decHdr h))) ∧
    (∀ c : BitVec 16, assemble p .serCi [.scalar (.num c.toNat)] = some (encode (.serCi c))) ∧
    (∀ ch st ct n : Byte,
      assemble p .serState
        [.scalar (.num ch.toNat), .scalar (.num st.toNat), .scalar (.num ct.toNat), .scalar (.num n.toNat)] =
        some (encode (.serState ch st ct n))) ∧
    (∀ (c : Byte) (f : BitVec 64),
      assemble p .serFreq [.scalar (.num c.toNat), .scalar (.num f.toNat)] = some (encode (.serFreq c f))) ∧
    (∀ (c : BitVec 1) (m n : Byte),
      assemble p .buildSetState [.scalar (.num c.toNat), .scalar (.num m.toNat), .scalar (.num n.toNat)] =
        some (encode (.buildSetState c m n))) ∧
    assemble p .buildStop [] = some (encode .buildStop) ∧
    (∀ (c : Byte) (f : BitVec 64),
      assemble p .buildSetFreq [.scalar (.num c.toNat), .scalar (.num f.toNat)] = some (encode (.buildSetFreq c f)))

/-- R55: the value of each symbol (`FIFO16bit` is the parameter `CAPTURE_FIFO16`), and that a symbol stands for the numeral
of its value wherever an operand of any width is read. -/
def Obligations.SymbolsHaveTheirValues : Prop :=
  ∀ p : Params,
    (AsmSymbol.setState.value p = 0x0018 ∧ AsmSymbol.setFrequency.value p = 0x0020 ∧
      AsmSymbol.idle.value p = 0x01 ∧ AsmSymbol.run.value p = 0x02 ∧
      AsmSymbol.channel1.value p = 0x00 ∧ AsmSymbol.channel2.value p = 0x02 ∧
      AsmSymbol.complex.value p = 1 ∧ AsmSymbol.real.value p = 0 ∧
      AsmSymbol.continuous24bit.value p = 0x80 ∧ AsmSymbol.fifo16bit.value p = p.captureFifo16.toNat) ∧
    ∀ (x : AsmSymbol) (n : Nat),
      (AsmScalar.sym x).value p = (AsmScalar.num (x.value p)).value p ∧
      (AsmScalar.sym x).bits p n = (AsmScalar.num (x.value p)).bits p n

/-! ## Steps, reset, and the requests that wait -/

/-- R20, R97: with one request waiting and no reset, the step is the operation it selects, run in the state where the
request no longer waits (the bookkeeping of the interface ports is the model's: log entries 4 and 6). -/
def Obligations.StepRunsTheDecodedRequest : Prop :=
  ∀ (s : State) (q : Request), s.resetLine = false → s.pending = [q] →
    step s = exec (decode q) { s with
      pending := [], request := some q, response := none, turn := s.turn + 1, patience := Config.patience (s.turn + 1) [] }

/-- R35: with requests waiting and no reset, the step is the operation that one of them selects, whichever the order (the list of
those waiting and the bookkeeping of the ports are the model's: log entries 4 and 6). -/
def Obligations.StepAnswersOneWaitingRequest : Prop :=
  ∀ s : State, s.resetLine = false → s.pending ≠ [] →
    ∃ k q left, s.pending[k]? = some q ∧
      step s = exec (decode q) { s with
        pending := s.pending.eraseIdx k, request := some q, response := none, turn := s.turn + 1, patience := left }

/-- R92, R93: reset drops the requests in progress and changes nothing else of the block, so the parameters stay. That every waiting
request counts as in progress, and that the step clears the reset input, are the model's choice (log entry 7); so is that
the latest request and response stand through reset and idle steps (log entry 6), and that the first request after the
reset has a free patience of its own (log entry 4). The second clause, a step with nothing
waiting, is log entry 5. -/
def Obligations.ResetAndIdleStepsAnswerNothing : Prop :=
  ∀ s : State,
    (s.resetLine = true → step s = .next { s with
      pending := [], resetLine := false, patience := Config.patience s.turn [] }) ∧
    (s.resetLine = false → s.pending = [] → step s = .next s)

/-- R91: the first request after reset gets the response it would get at any other time (the state at "any other time" is
any `u` with the same parameters). -/
def Obligations.FirstRequestAfterResetAnswersAlike : Prop :=
  ∀ (s u : State) (q : Request), s.resetLine = true → u.params = s.params → u.resetLine = false → u.pending = [q] →
    ∃ t t' u' r, step s = .next t ∧ step (t.issue q) = .next t' ∧ step u = .next u' ∧
      t'.response = some r ∧ u'.response = some r

/-- R24, R91: after reset nothing waits and nothing has been answered, and the parameters are legal (R94). The reset
input and the empty ports are the model's interface (log entries 6 and 7). -/
def Obligations.ResetStateHoldsNothing : Prop :=
  State.reset.pending = [] ∧ State.reset.resetLine = false ∧ State.reset.request = none ∧
    State.reset.response = none ∧ State.reset.params.wf = true

/-- R6: the constraint on `CAPTURE_FIFO16` shuts out 0x80 and nothing else: the model's codes are exactly the others. -/
def Obligations.FifoCodesAreExactlyTheLegalOnes : Prop :=
  ∀ b : Byte, (∃ i, Config.fifoCode i = b) ↔ b ≠ 0x80#8

/-- The invariant holds at reset. -/
def Obligations.InvariantHoldsAtReset : Prop := Inv State.reset

/-- Every step keeps the invariant: legal parameters, and the latest transaction, if any, has one response, which is the
one its request's rule gives under those parameters and is of a form, length and error R22, R31 and R77 allow it. -/
def Obligations.EveryStepKeepsTheInvariant : Prop :=
  ∀ s t : State, Inv s → step s = .next t → Inv t

/-- R98: the block cannot hang. Every step from every state answers a next state. -/
def Obligations.EveryStepAnswersANextState : Prop :=
  ∀ s : State, ∃ t, step s = .next t

/-- R6, R19: no run changes either parameter. -/
def Obligations.RunsNeverChangeTheParameters : Prop :=
  ∀ (n : Nat) (s : State), ∃ t, core.run n s = .next t ∧ t.params = s.params

/-- R98: with no request issued meanwhile, every waiting request that no reset cuts off has its transaction within as many
steps as there are waiting requests, and then none waits. One transaction a step in some order is the model's (log entry
4), and so are the ports that show it (log entry 6). -/
def Obligations.WaitingRequestsAreAllAnswered : Prop :=
  ∀ s : State, s.resetLine = false →
    ∃ t, core.run s.pending.length s = .next t ∧ t.pending = [] ∧
      ((transactions s.pending.length s).map Prod.fst).Perm s.pending

/-- R35, R90: however requests overlap and in whatever order they are answered, each of them is answered exactly once, and
gets the response its own rule gives. One transaction a step in some order is the model's (log entry 4), and so are the
ports that show it (log entry 6). -/
def Obligations.OverlappingRequestsEachGetTheirOwnResponse : Prop :=
  ∀ s : State, s.resetLine = false →
    ((transactions s.pending.length s).map Prod.fst).Perm s.pending ∧
    ∀ x ∈ transactions s.pending.length s, Answers s.params (decode x.1) x.2

/-- R20, R35, R98: every step with requests waiting and no reset removes exactly one of them and answers that one, with the
response its own rule gives under the parameters, which stay as they are. The list of those waiting is the model's (log
entry 4), and so are the ports (log entry 6). -/
def Obligations.EveryStepAnswersExactlyOneWaitingRequest : Prop :=
  ∀ s : State, s.resetLine = false → s.pending ≠ [] →
    ∃ q r t, step s = .next t ∧ (q :: t.pending).Perm s.pending ∧ (t.pending.Sublist s.pending) ∧
      t.request = some q ∧ t.response = some r ∧ Answers s.params (decode q) r ∧
      t.params = s.params ∧ t.resetLine = false

/-- R98: whatever is issued between steps, the oldest waiting request is passed over at most as often as its patience says,
a finite number the spec gives no bound for (log entry 4). -/
def Obligations.OldestRequestIsPassedOverAtMostItsPatience : Prop :=
  ∀ (s : State) (arrivals : Nat → List Request), s.resetLine = false → s.pending ≠ [] →
    AnsweredWithin (s.patience + 1) arrivals 0 s

/-- R98: whatever is issued between steps, every waiting request that no reset cuts off gets its response after finitely
many steps. That it does so because the oldest cannot be passed over forever is the model's reading (log entry 4). -/
def Obligations.EveryWaitingRequestIsAnsweredDespiteNewOnes : Prop :=
  ∀ (s : State) (arrivals : Nat → List Request) (j : Nat), s.resetLine = false → j < s.pending.length →
    ∃ n, AnsweredWithin n arrivals j s

/-! ## Statelessness -/

/-- R14: the response depends only on the request and the two parameters, and a request changes nothing else. -/
def Obligations.ResponseDependsOnRequestAndParametersAlone : Prop :=
  ∀ (i : Instr) (s u : State), s.params = u.params →
    ∃ r, exec i s = .next { s with response := some r } ∧ exec i u = .next { u with response := some r }

/-- R33, R86, R96: after any operation, a failed one too, any operation does exactly what it would have done before it. -/
def Obligations.EarlierRequestsLeaveNoTrace : Prop :=
  ∀ (i j : Instr) (s : State), ∃ t, exec i s = .next t ∧ exec j t = exec j s

/-- Only BUILD_SET_STATE depends on `CAPTURE_FIFO16` (R6, R56, R58, R64, R72, R73). -/
def Obligations.OnlyBuildSetStateReadsTheFifoCode : Prop :=
  ∀ (i : Instr) (s u : State), s.params.strictEnums = u.params.strictEnums →
    (∀ c m n, i ≠ .buildSetState c m n) →
    ∃ r, exec i s = .next { s with response := some r } ∧ exec i u = .next { u with response := some r }

/-- R67's law: on listed members both settings of `STRICT_ENUMS` give the same response. -/
def Obligations.ListedMembersAgreeUnderBothSettings : Prop :=
  ∀ (i : Instr) (s u : State), s.params.captureFifo16 = u.params.captureFifo16 →
    (∀ ci, i = .serCi ci → ci = 0x0018#16 ∨ ci = 0x0020#16) →
    (∀ ch st ct n, i = .serState ch st ct n → st = 0x01#8 ∨ st = 0x02#8) →
    (∀ c f, i = .serFreq c f ∨ i = .buildSetFreq c f → c = 0x00#8 ∨ c = 0x02#8) →
    ∃ r, exec i s = .next { s with response := some r } ∧ exec i u = .next { u with response := some r }

/-! ## The header codec -/

/-- R56: ENC_HDR, for all integers. The bytes are `length mod 256` and `32 * type + length / 256`. -/
def Obligations.EncHdrAnswers : Prop :=
  (∀ q : Request, q.op = 0x0#4 → decode q = .encHdr q.type q.length) ∧
  ∀ (s : State) (t l : Int),
    exec (.encHdr t l) s = .next { s with
      response := some
          (if 0 ≤ t ∧ t ≤ 7 ∧ 0 ≤ l ∧ l ≤ 8191 then
            .bytes [BitVec.ofInt 8 (l % 256), BitVec.ofInt 8 (32 * t + l / 256)]
          else .error .invalidArgument) }

/-- R58: DEC_HDR, for every byte list. -/
def Obligations.DecHdrAnswers : Prop :=
  (∀ q : Request, q.op = 0x1#4 → decode q = .decHdr q.hdr) ∧
  ∀ s : State,
    (∀ b0 b1 : Byte, exec (.decHdr [b0, b1]) s = .next { s with
      response := some
          (.header (BitVec.ofNat 3 (b1.toNat / 32)) (BitVec.ofNat 13 (b0.toNat + 256 * (b1.toNat % 32)))) }) ∧
    (∀ hdr : Bytes, hdr.length ≠ 2 →
      exec (.decHdr hdr) s = .next { s with response := some (.error .malformedFrame) })

/-- R59: encoding and then decoding gives the type and the length back. -/
def Obligations.HeaderRoundTrip : Prop :=
  ∀ (s : State) (t l : Int), 0 ≤ t → t ≤ 7 → 0 ≤ l → l ≤ 8191 →
    ∃ (bs : Bytes) (t' : MsgType) (l' : MsgLength),
      exec (.encHdr t l) s = .next { s with response := some (.bytes bs) } ∧
      exec (.decHdr bs) s = .next { s with response := some (.header t' l') } ∧
      (t'.toNat : Int) = t ∧ (l'.toNat : Int) = l

/-- R60: decoding and then encoding gives any two bytes back, and ENC_HDR on its accepted operands is a bijection onto the
two-byte lists. -/
def Obligations.HeaderConverseAndBijection : Prop :=
  ∀ s : State,
    (∀ b0 b1 : Byte, ∃ (t : MsgType) (l : MsgLength),
      exec (.decHdr [b0, b1]) s = .next { s with response := some (.header t l) } ∧
      exec (.encHdr t.toNat l.toNat) s = .next { s with response := some (.bytes [b0, b1]) }) ∧
    (∀ t l : Int, 0 ≤ t → t ≤ 7 → 0 ≤ l → l ≤ 8191 →
      (∃ b0 b1 : Byte, exec (.encHdr t l) s = .next { s with response := some (.bytes [b0, b1]) }) ∧
      ∀ t' l' : Int, 0 ≤ t' → t' ≤ 7 → 0 ≤ l' → l' ≤ 8191 →
        exec (.encHdr t l) s = exec (.encHdr t' l') s → t = t' ∧ l = l')

/-- R39, R40: the packing formula as the source gives it, its value as a sum, and the two bytes on the wire. -/
def Obligations.HeaderPackingFormula : Prop :=
  ∀ (t : MsgType) (l : MsgLength),
    packHeader t l = l.setWidth 16 ||| (t.setWidth 16 <<< 13) ∧
    packHeader t l =
      (l.extractLsb' 0 8).setWidth 16 ||| (t.setWidth 16 <<< 13) ||| ((l.extractLsb' 8 5).setWidth 16 <<< 8) ∧
    (packHeader t l).toNat = l.toNat + t.toNat * 8192 ∧
    le16 (packHeader t l) = [l.extractLsb' 0 8, (t.setWidth 8 <<< 5) ||| (l.extractLsb' 8 5).setWidth 8]

/-- R61: the consumer's verdict on a two-byte reply header is whether its length field is 2; the type plays no part. -/
def Obligations.ConsumerVerdictIgnoresTheType : Prop :=
  ∀ (s : State) (b0 b1 : Byte), ∃ r, exec (.decHdr [b0, b1]) s = .next { s with response := some r } ∧
    r.consumerNak = some (decide (b0.toNat + 256 * (b1.toNat % 32) = 2))

/-! ## The serializers -/

/-- R63: SER_CI. -/
def Obligations.SerCiAnswers : Prop :=
  (∀ q : Request, q.op = 0x2#4 → decode q = .serCi q.ci) ∧
  ∀ (s : State) (ci : BitVec 16),
    exec (.serCi ci) s = .next { s with
      response := some
          (if s.params.strictEnums = true ∧ ci ≠ 0x0018#16 ∧ ci ≠ 0x0020#16 then .error .invalidArgument
          else .bytes [BitVec.ofNat 8 (ci.toNat % 256), BitVec.ofNat 8 (ci.toNat / 256)]) }

/-- R64: SER_STATE. -/
def Obligations.SerStateAnswers : Prop :=
  (∀ q : Request, q.op = 0x3#4 → decode q = .serState q.chanType q.stateType q.captureType q.numSamples) ∧
  ∀ (s : State) (chanType stateType captureType numSamples : Byte),
    exec (.serState chanType stateType captureType numSamples) s = .next { s with
      response := some
          (if s.params.strictEnums = true ∧ stateType ≠ 0x01#8 ∧ stateType ≠ 0x02#8 then .error .invalidArgument
          else .bytes [chanType, stateType, captureType, numSamples]) }

/-- R65: SER_FREQ, with R66's narrowing. -/
def Obligations.SerFreqAnswers : Prop :=
  (∀ q : Request, q.op = 0x4#4 → decode q = .serFreq q.channelId q.freq) ∧
  ∀ (s : State) (channelId : Byte) (freq : BitVec 64),
    exec (.serFreq channelId freq) s = .next { s with
      response := some
          (if s.params.strictEnums = true ∧ channelId ≠ 0x00#8 ∧ channelId ≠ 0x02#8 then .error .invalidArgument
          else .bytes [channelId,
            BitVec.ofNat 8 (freq.toNat % 2 ^ 40), BitVec.ofNat 8 (freq.toNat % 2 ^ 40 / 2 ^ 8),
            BitVec.ofNat 8 (freq.toNat % 2 ^ 40 / 2 ^ 16), BitVec.ofNat 8 (freq.toNat % 2 ^ 40 / 2 ^ 24),
            BitVec.ofNat 8 (freq.toNat % 2 ^ 40 / 2 ^ 32)]) }

/-- R66: frequencies equal modulo 2^40 give the same response, in the serializer and in the builder. -/
def Obligations.FrequencyBitsAbove40AreDiscarded : Prop :=
  ∀ (s : State) (c : Byte) (f g : BitVec 64), f.toNat % 2 ^ 40 = g.toNat % 2 ^ 40 →
    exec (.serFreq c f) s = exec (.serFreq c g) s ∧ exec (.buildSetFreq c f) s = exec (.buildSetFreq c g) s

/-! ## The builders -/

/-- R70 to R72: BUILD_SET_STATE. -/
def Obligations.BuildSetStateAnswers : Prop :=
  (∀ q : Request, q.op = 0x5#4 → decode q = .buildSetState q.complex q.captureMode q.numSamples) ∧
  (∀ c m, decode { op := 0x5#4, complex := c, captureMode := m } = .buildSetState c m 0x00#8) ∧
  ∀ (s : State) (complex : BitVec 1) (captureMode numSamples : Byte),
    exec (.buildSetState complex captureMode numSamples) s = .next { s with
      response := some
          (.bytes [0x08#8, 0x00#8, 0x18#8, 0x00#8, if complex = 1#1 then 0x80#8 else 0x00#8, 0x02#8, captureMode,
            if captureMode = s.params.captureFifo16 then numSamples else 0x00#8]) }

/-- R73: BUILD_STOP. -/
def Obligations.BuildStopAnswers : Prop :=
  (∀ q : Request, q.op = 0x6#4 → decode q = .buildStop) ∧
  ∀ s : State, exec .buildStop s = .next { s with
    response := some
        (.bytes [0x08#8, 0x00#8, 0x18#8, 0x00#8, 0x00#8, 0x01#8, 0x00#8, 0x00#8]) }

/-- R74: BUILD_SET_FREQ. -/
def Obligations.BuildSetFreqAnswers : Prop :=
  (∀ q : Request, q.op = 0x7#4 → decode q = .buildSetFreq q.channelId q.freq) ∧
  ∀ (s : State) (channelId : Byte) (freq : BitVec 64),
    exec (.buildSetFreq channelId freq) s = .next { s with
      response := some
          (if s.params.strictEnums = true ∧ channelId ≠ 0x00#8 ∧ channelId ≠ 0x02#8 then .error .invalidArgument
          else .bytes [0x0A#8, 0x00#8, 0x20#8, 0x00#8, channelId,
            BitVec.ofNat 8 (freq.toNat % 2 ^ 40), BitVec.ofNat 8 (freq.toNat % 2 ^ 40 / 2 ^ 8),
            BitVec.ofNat 8 (freq.toNat % 2 ^ 40 / 2 ^ 16), BitVec.ofNat 8 (freq.toNat % 2 ^ 40 / 2 ^ 24),
            BitVec.ofNat 8 (freq.toNat % 2 ^ 40 / 2 ^ 32)]) }

/-- R75: a successful builder's output starts with a header of type 0 and of the output's own length. -/
def Obligations.BuilderHeaderStatesItsOwnLength : Prop :=
  ∀ (i : Instr) (s t : State) (bs : Bytes),
    ((∃ c m n, i = .buildSetState c m n) ∨ i = .buildStop ∨ ∃ c f, i = .buildSetFreq c f) →
    exec i s = .next t → t.response = some (.bytes bs) →
    ∃ (b0 b1 : Byte) (rest : Bytes) (l : MsgLength), bs = b0 :: b1 :: rest ∧ l.toNat = bs.length ∧
      exec (.decHdr [b0, b1]) t = .next { t with response := some (.header 0#3 l) }

/-- R68: what a builder answers is what the operations it is composed of answer, put together: the header of type 0 and of
the total length, the control item, the parameter block; an error of the parameter block is returned as it is. -/
def Obligations.BuildersComposeTheOperations : Prop :=
  ∀ s : State,
    (∀ (i j : Instr) (ci : BitVec 16),
      ((∃ c m n, i = .buildSetState c m n ∧ ci = 0x0018#16 ∧
          j = .serState (if c = 1#1 then 0x80#8 else 0x00#8) 0x02#8 m
            (if m = s.params.captureFifo16 then n else 0x00#8)) ∨
        (i = .buildStop ∧ ci = 0x0018#16 ∧ j = .serState 0x00#8 0x01#8 0x00#8 0x00#8) ∨
        (∃ c f, i = .buildSetFreq c f ∧ ci = 0x0020#16 ∧ j = .serFreq c f)) →
      (∃ h c p, exec j s = .next { s with response := some (.bytes p) } ∧
        exec (.encHdr 0 (4 + p.length)) s = .next { s with response := some (.bytes h) } ∧
        exec (.serCi ci) s = .next { s with response := some (.bytes c) } ∧
        exec i s = .next { s with response := some (.bytes (h ++ c ++ p)) }) ∨
      (∃ e, exec j s = .next { s with response := some (.error e) } ∧
        exec i s = .next { s with response := some (.error e) }))

/-- R68, R69: the composition checks the total length: over 8191 it fails with InvalidArgument, and within it with a listed
control item it succeeds. -/
def Obligations.CompositionChecksTheTotalLength : Prop :=
  ∀ (p : Params) (ci : BitVec 16) (block : Bytes),
    (8191 < 4 + block.length → cmd p ci block = .error .invalidArgument) ∧
    (4 + block.length ≤ 8191 → ci = 0x0018#16 ∨ ci = 0x0020#16 →
      ∃ s, cmd p ci block = .ok s ∧ s.length = 4 + block.length)

/-! ## Errors -/

/-- R51: a reserved selector gets IllegalOperation and no other effect. -/
def Obligations.ReservedSelectorAnswers : Prop :=
  (∀ q : Request, 8 ≤ q.op.toNat → decode q = .reserved q.op) ∧
  ∀ (s : State) (op : BitVec 4),
    exec (.reserved op) s = .next { s with response := some (.error .illegalOperation) }

/-- R78: InvalidArgument is raised in exactly these cases. -/
def Obligations.InvalidArgumentInExactlyTheseCases : Prop :=
  ∀ (i : Instr) (s : State), ∃ t, exec i s = .next t ∧
    (t.response = some (.error .invalidArgument) ↔
      (∃ ty l, i = .encHdr ty l ∧ (ty < 0 ∨ 7 < ty)) ∨
      (∃ ty l, i = .encHdr ty l ∧ (l < 0 ∨ 8191 < l)) ∨
      (∃ ci, i = .serCi ci ∧ s.params.strictEnums = true ∧ ci ≠ 0x0018#16 ∧ ci ≠ 0x0020#16) ∨
      (∃ ch st ct n, i = .serState ch st ct n ∧ s.params.strictEnums = true ∧ st ≠ 0x01#8 ∧ st ≠ 0x02#8) ∨
      (∃ c f, (i = .serFreq c f ∨ i = .buildSetFreq c f) ∧
        s.params.strictEnums = true ∧ c ≠ 0x00#8 ∧ c ≠ 0x02#8))

/-- R79: MalformedFrame is raised in exactly one case. -/
def Obligations.MalformedFrameInExactlyOneCase : Prop :=
  ∀ (i : Instr) (s : State), ∃ t, exec i s = .next t ∧
    (t.response = some (.error .malformedFrame) ↔ ∃ hdr : Bytes, i = .decHdr hdr ∧ hdr.length ≠ 2)

/-- R80: IllegalOperation is raised in exactly one case, and the operands of such a request are not looked at. -/
def Obligations.IllegalOperationInExactlyOneCase : Prop :=
  ∀ (q : Request) (s : State), ∃ t, exec (decode q) s = .next t ∧
    (t.response = some (.error .illegalOperation) ↔ 8 ≤ q.op.toNat) ∧
    ∀ q' : Request, 8 ≤ q.op.toNat → q'.op = q.op → exec (decode q') s = .next t

/-- R31: the number of bytes each operation outputs on success, and the one input length DEC_HDR accepts. -/
def Obligations.OutputLengthsAreFixed : Prop :=
  ∀ (i : Instr) (s : State), ∃ t, exec i s = .next t ∧
    (∀ bs, t.response = some (.bytes bs) →
      match i with
      | .encHdr _ _ => bs.length = 2
      | .decHdr _ => False
      | .serCi _ => bs.length = 2
      | .serState _ _ _ _ => bs.length = 4
      | .serFreq _ _ => bs.length = 6
      | .buildSetState _ _ _ => bs.length = 8
      | .buildStop => bs.length = 8
      | .buildSetFreq _ _ => bs.length = 10
      | .reserved _ => False) ∧
    (∀ ty l, t.response = some (.header ty l) → ∃ hdr, i = .decHdr hdr) ∧
    (∀ hdr : Bytes, i = .decHdr hdr →
      (hdr.length = 2 → ∃ ty l, t.response = some (.header ty l)) ∧
      (hdr.length ≠ 2 → t.response = some (.error .malformedFrame)))

/-- The exact byte strings the source gives (spec/95_test_vectors.md, V-L1-1, V-L1-3, V-L1-5, V-L1-8, V-L1-9). -/
def Obligations.SourceVectorsAnswer : Prop :=
  ∀ s : State,
    exec (.buildSetState DataComplex Continuous24bit 0#8) s = .next { s with
      response := some
          (.bytes [0x08#8, 0x00#8, 0x18#8, 0x00#8, 0x80#8, 0x02#8, 0x80#8, 0x00#8]) } ∧
    exec .buildStop s = .next { s with
      response := some
          (.bytes [0x08#8, 0x00#8, 0x18#8, 0x00#8, 0x00#8, 0x01#8, 0x00#8, 0x00#8]) } ∧
    exec (.buildSetFreq Channel1 14010000#64) s = .next { s with
      response := some
          (.bytes [0x0A#8, 0x00#8, 0x20#8, 0x00#8, 0x00#8, 0x90#8, 0xC6#8, 0xD5#8, 0x00#8, 0x00#8]) } ∧
    exec (.encHdr 8 8) s = .next { s with response := some (.error .invalidArgument) } ∧
    exec (.encHdr 0 8192) s = .next { s with response := some (.error .invalidArgument) } ∧
    exec (.decHdr [0x02#8, 0x00#8]) s = .next { s with response := some (.header 0#3 2#13) } ∧
    exec (.decHdr [0x08#8, 0x00#8]) s = .next { s with response := some (.header 0#3 8#13) }
end

