-- ==== Sys2Proof/Laws/Config.lean ====
section
/-! SUPPORT. The codes `CAPTURE_FIFO16` may have. -/

namespace Sys2Proof.Config

/-- No index gives the code of Continuous24bit (R6). -/
theorem fifoCode_ne (i : Fin 255) : fifoCode i ≠ 0x80#8 := by
  intro h
  have hi := i.isLt
  have h' := congrArg BitVec.toNat h
  unfold fifoCode at h'
  split at h' <;> simp at h' <;> omega

theorem params_wf : params.wf = true := by
  simp [Params.wf, params, fifoCode_ne]

end Sys2Proof.Config
end

