-- ==== Sys2Proof/Laws/Decode.lean ====
section
/-! SUPPORT. What the decoder answers for each selector, from the selector's value. -/

namespace Sys2Proof

variable {q : Request}

theorem decode_encHdr (h : q.op = 0x0#4) : decode q = .encHdr q.type q.length := by simp [decode, h]
theorem decode_decHdr (h : q.op = 0x1#4) : decode q = .decHdr q.hdr := by simp [decode, h]
theorem decode_serCi (h : q.op = 0x2#4) : decode q = .serCi q.ci := by simp [decode, h]
theorem decode_serState (h : q.op = 0x3#4) :
    decode q = .serState q.chanType q.stateType q.captureType q.numSamples := by simp [decode, h]
theorem decode_serFreq (h : q.op = 0x4#4) : decode q = .serFreq q.channelId q.freq := by simp [decode, h]
theorem decode_buildSetState (h : q.op = 0x5#4) :
    decode q = .buildSetState q.complex q.captureMode q.numSamples := by simp [decode, h]
theorem decode_buildStop (h : q.op = 0x6#4) : decode q = .buildStop := by simp [decode, h]
theorem decode_buildSetFreq (h : q.op = 0x7#4) : decode q = .buildSetFreq q.channelId q.freq := by simp [decode, h]

/-- The selectors 0x8 to 0xF, whatever the operands. -/
theorem decode_reserved (h : 8 ≤ q.op.toNat) : decode q = .reserved q.op := by
  unfold decode; split <;> first | omega | rfl

/-- A selector is one of the eight operations' or a reserved one. -/
theorem selector_cases (o : BitVec 4) :
    o = 0x0#4 ∨ o = 0x1#4 ∨ o = 0x2#4 ∨ o = 0x3#4 ∨ o = 0x4#4 ∨ o = 0x5#4 ∨ o = 0x6#4 ∨ o = 0x7#4 ∨ 8 ≤ o.toNat := by
  revert o; decide

end Sys2Proof
end

