-- ==== Sys2Proof/Laws/Operands.lean ====
section
/-! SUPPORT. The byte lists and bit fields as arithmetic on natural numbers. -/

namespace Sys2Proof.Machine

theorem le16_eq (v : BitVec 16) :
    le16 v = [BitVec.ofNat 8 v.toNat, BitVec.ofNat 8 (v.toNat / 256)] := by
  simp [le16, BitVec.extractLsb', Nat.shiftRight_eq_div_pow]

theorem le40_eq (v : BitVec 40) :
    le40 v = [BitVec.ofNat 8 v.toNat, BitVec.ofNat 8 (v.toNat / 2 ^ 8), BitVec.ofNat 8 (v.toNat / 2 ^ 16),
      BitVec.ofNat 8 (v.toNat / 2 ^ 24), BitVec.ofNat 8 (v.toNat / 2 ^ 32)] := by
  simp [le40, BitVec.extractLsb', Nat.shiftRight_eq_div_pow]

@[simp] theorem length_le16 (v : BitVec 16) : (le16 v).length = 2 := rfl
@[simp] theorem length_le40 (v : BitVec 40) : (le40 v).length = 5 := rfl

theorem toNat_trunc40 (f : BitVec 64) : (trunc40 f).toNat = f.toNat % 2 ^ 40 := by
  simp [trunc40]

theorem toNat_headerType (b1 : Byte) : (headerType b1).toNat = b1.toNat / 32 := by
  have := b1.isLt
  simp only [headerType, BitVec.extractLsb'_toNat, Nat.shiftRight_eq_div_pow]
  omega

theorem toNat_headerLength (b0 b1 : Byte) :
    (headerLength b0 b1).toNat = b0.toNat + 256 * (b1.toNat % 32) := by
  have h0 := b0.isLt
  have hd : headerLength b0 b1 = (b1.extractLsb' 0 5) ++ b0 := by
    apply BitVec.eq_of_getLsbD_eq
    intro i hi
    simp only [headerLength, BitVec.getLsbD_or, BitVec.getLsbD_setWidth, BitVec.getLsbD_shiftLeft, BitVec.getLsbD_append]
    by_cases h : i < 8
    · simp [h, hi]
    · have := b0.getLsbD_of_ge i (by omega)
      have h13 : i - 8 < 13 := by omega
      simp [h, hi, h13, this]
  rw [hd, BitVec.toNat_append, ← Nat.shiftLeft_add_eq_or_of_lt h0, Nat.shiftLeft_eq, BitVec.extractLsb'_toNat]
  simp only [Nat.shiftRight_zero]
  omega

theorem listedControlItem_iff (ci : BitVec 16) :
    listedControlItem ci = true ↔ ci = 0x0018#16 ∨ ci = 0x0020#16 := by
  simp [listedControlItem, SetState, SetFrequency]

theorem listedStateType_iff (st : Byte) : listedStateType st = true ↔ st = 0x01#8 ∨ st = 0x02#8 := by
  simp [listedStateType, Idle, Run]

theorem listedChannelId_iff (c : Byte) : listedChannelId c = true ↔ c = 0x00#8 ∨ c = 0x02#8 := by
  simp [listedChannelId, Channel1, Channel2]

end Sys2Proof.Machine
end

