-- ==== Sys2Proof/Laws/State.lean ====
section
/-! SUPPORT. What each update of the state leaves in each field. -/

namespace Sys2Proof.Machine

@[simp] theorem State.respond_params (s : State) (r : Response) : (s.respond r).params = s.params := rfl
@[simp] theorem State.respond_pending (s : State) (r : Response) : (s.respond r).pending = s.pending := rfl
@[simp] theorem State.respond_resetLine (s : State) (r : Response) : (s.respond r).resetLine = s.resetLine := rfl
@[simp] theorem State.respond_request (s : State) (r : Response) : (s.respond r).request = s.request := rfl
@[simp] theorem State.respond_response (s : State) (r : Response) : (s.respond r).response = some r := rfl
@[simp] theorem State.respond_turn (s : State) (r : Response) : (s.respond r).turn = s.turn := rfl
@[simp] theorem State.respond_patience (s : State) (r : Response) : (s.respond r).patience = s.patience := rfl

@[simp] theorem State.issue_params (s : State) (q : Request) : (s.issue q).params = s.params := rfl
@[simp] theorem State.issue_pending (s : State) (q : Request) : (s.issue q).pending = s.pending ++ [q] := rfl
@[simp] theorem State.issue_resetLine (s : State) (q : Request) : (s.issue q).resetLine = s.resetLine := rfl
@[simp] theorem State.issue_request (s : State) (q : Request) : (s.issue q).request = s.request := rfl
@[simp] theorem State.issue_response (s : State) (q : Request) : (s.issue q).response = s.response := rfl
@[simp] theorem State.issue_turn (s : State) (q : Request) : (s.issue q).turn = s.turn := rfl
@[simp] theorem State.issue_patience (s : State) (q : Request) : (s.issue q).patience = s.patience := rfl

@[simp] theorem State.assertReset_params (s : State) : (s.assertReset).params = s.params := rfl
@[simp] theorem State.assertReset_pending (s : State) : (s.assertReset).pending = s.pending := rfl
@[simp] theorem State.assertReset_resetLine (s : State) : (s.assertReset).resetLine = true := rfl
@[simp] theorem State.assertReset_request (s : State) : (s.assertReset).request = s.request := rfl
@[simp] theorem State.assertReset_response (s : State) : (s.assertReset).response = s.response := rfl
@[simp] theorem State.assertReset_turn (s : State) : (s.assertReset).turn = s.turn := rfl
@[simp] theorem State.assertReset_patience (s : State) : (s.assertReset).patience = s.patience := rfl

@[simp] theorem State.takeReset_params (s : State) : (s.takeReset).params = s.params := rfl
@[simp] theorem State.takeReset_pending (s : State) : (s.takeReset).pending = [] := rfl
@[simp] theorem State.takeReset_resetLine (s : State) : (s.takeReset).resetLine = false := rfl
@[simp] theorem State.takeReset_request (s : State) : (s.takeReset).request = s.request := rfl
@[simp] theorem State.takeReset_response (s : State) : (s.takeReset).response = s.response := rfl
@[simp] theorem State.takeReset_turn (s : State) : (s.takeReset).turn = s.turn := rfl
@[simp] theorem State.takeReset_patience (s : State) : (s.takeReset).patience = Config.patience s.turn [] := rfl

@[simp] theorem State.accept_params (s : State) (k : Nat) (q : Request) : (s.accept k q).params = s.params := rfl
@[simp] theorem State.accept_pending (s : State) (k : Nat) (q : Request) : (s.accept k q).pending = s.pending.eraseIdx k := rfl
@[simp] theorem State.accept_resetLine (s : State) (k : Nat) (q : Request) : (s.accept k q).resetLine = s.resetLine := rfl
@[simp] theorem State.accept_request (s : State) (k : Nat) (q : Request) : (s.accept k q).request = some q := rfl
@[simp] theorem State.accept_response (s : State) (k : Nat) (q : Request) : (s.accept k q).response = none := rfl
@[simp] theorem State.accept_turn (s : State) (k : Nat) (q : Request) : (s.accept k q).turn = s.turn + 1 := rfl
@[simp] theorem State.accept_patience (s : State) (k : Nat) (q : Request) : (s.accept k q).patience = s.patienceAfter k := rfl

/-- Issuing several requests appends them to those waiting, and changes nothing else. -/
theorem State.issueAll_eq (s : State) (qs : List Request) : s.issueAll qs = { s with pending := s.pending ++ qs } := by
  unfold State.issueAll
  induction qs generalizing s with
  | nil => simp
  | cons q qs ih => simp [ih]

@[simp] theorem State.issueAll_params (s : State) (qs : List Request) : (s.issueAll qs).params = s.params := by rw [s.issueAll_eq]
@[simp] theorem State.issueAll_pending (s : State) (qs : List Request) : (s.issueAll qs).pending = s.pending ++ qs := by rw [s.issueAll_eq]
@[simp] theorem State.issueAll_resetLine (s : State) (qs : List Request) : (s.issueAll qs).resetLine = s.resetLine := by rw [s.issueAll_eq]
@[simp] theorem State.issueAll_request (s : State) (qs : List Request) : (s.issueAll qs).request = s.request := by rw [s.issueAll_eq]
@[simp] theorem State.issueAll_response (s : State) (qs : List Request) : (s.issueAll qs).response = s.response := by rw [s.issueAll_eq]
@[simp] theorem State.issueAll_turn (s : State) (qs : List Request) : (s.issueAll qs).turn = s.turn := by rw [s.issueAll_eq]
@[simp] theorem State.issueAll_patience (s : State) (qs : List Request) : (s.issueAll qs).patience = s.patience := by rw [s.issueAll_eq]

/-- The next oldest request has a patience of its own. -/
theorem State.patienceAfter_oldest (s : State) :
    s.patienceAfter 0 = Config.patience (s.turn + 1) (s.pending.eraseIdx 0) := rfl

/-- Passing over the oldest request costs one of its patience. -/
theorem State.patienceAfter_bypass {s : State} {k : Nat} (h : k ≠ 0) : s.patienceAfter k = s.patience - 1 := by
  simp [State.patienceAfter, h]

/-- The later of two responses stands. -/
theorem State.respond_respond (s : State) (r r' : Response) : (s.respond r).respond r' = s.respond r' := rfl

end Sys2Proof.Machine
end

