-- ==== Sys2Proof/Laws/Exec.lean ====
section
/-! SUPPORT. One lemma per shared operation and per pure operation of the block: what it gives, case by case. -/

namespace Sys2Proof.Machine

/-- A reply is always a next state, differing in the response alone. -/
theorem reply_eq (r : Result) (s : State) : reply r s = .next { s with response := some (.ofResult r) } := rfl

theorem raise_eq (e : ErrorCode) (s : State) : raise e s = .next { s with response := some (.error e) } := rfl

theorem encHdr_ok {t l : Int} (ht : 0 ≤ t ∧ t ≤ 7) (hl : 0 ≤ l ∧ l ≤ 8191) :
    encHdr t l = .ok (le16 (packHeader (BitVec.ofInt 3 t) (BitVec.ofInt 13 l))) := by
  simp [encHdr, ht, hl]

theorem encHdr_error {t l : Int} (h : ¬ (0 ≤ t ∧ t ≤ 7 ∧ 0 ≤ l ∧ l ≤ 8191)) :
    encHdr t l = .error .invalidArgument := by
  unfold encHdr; split
  · rfl
  · rw [if_pos (by omega)]

theorem decHdr_two (b0 b1 : Byte) : decHdr [b0, b1] = .ok (headerType b1, headerLength b0 b1) := rfl

theorem decHdr_error {h : Bytes} (hl : h.length ≠ 2) : decHdr h = .error .malformedFrame := by
  unfold decHdr; split
  · simp at hl
  · rfl

theorem serCi_listed {p : Params} {ci : BitVec 16} (h : listedControlItem ci = true) :
    serCi p ci = .ok (le16 ci) := by simp [serCi, h]

theorem serState_listed {p : Params} {st : Byte} (ch ct n : Byte) (h : listedStateType st = true) :
    serState p ch st ct n = .ok [ch, st, ct, n] := by simp [serState, h]

/-- The composition of a builder with an admissible length and a listed control item never raises (R69). -/
theorem cmd_listed {p : Params} {ci : BitVec 16} {bs : Bytes} (hc : listedControlItem ci = true)
    (hl : bs.length ≤ 8187) :
    cmd p ci bs = .ok (le16 (packHeader 0#3 (BitVec.ofNat 13 (4 + bs.length))) ++ le16 ci ++ bs) := by
  have h4 : (4 + (bs.length : Int)) = ((4 + bs.length : Nat) : Int) := by omega
  have he := encHdr_ok (t := HostCommand) (l := 4 + bs.length) (by decide) (by omega)
  rw [h4, BitVec.ofInt_natCast] at he
  simp only [cmd, h4, he, serCi_listed hc]
  rfl

@[simp] theorem command_error (p : Params) (ci : BitVec 16) (e : ErrorCode) : command p ci (.error e) = .error e := rfl
@[simp] theorem command_ok (p : Params) (ci : BitVec 16) (block : Bytes) : command p ci (.ok block) = cmd p ci block := rfl

/-! The headers and control items of the two commands (R48, R69). -/

theorem header_setState : le16 (packHeader 0#3 (BitVec.ofNat 13 8)) = [0x08#8, 0x00#8] := by decide
theorem header_setFrequency : le16 (packHeader 0#3 (BitVec.ofNat 13 10)) = [0x0A#8, 0x00#8] := by decide
theorem le16_setState : le16 SetState = [0x18#8, 0x00#8] := by decide
theorem le16_setFrequency : le16 SetFrequency = [0x20#8, 0x00#8] := by decide

/-- DEC_HDR gives a header or an error, and changes nothing but the response. -/
theorem execDecHdr_eq (h : Bytes) (s : State) :
    execDecHdr h s = .next { s with response := some (match decHdr h with
      | .ok x => .header x.1 x.2
      | .error e => .error e) } := by
  unfold execDecHdr; split <;> simp_all [returnHeader, raise, State.respond]

end Sys2Proof.Machine
end

