-- ==== Sys2Proof/Laws/PerInstr.lean ====
section
/-! SUPPORT. The family EncodeCanonical: the encoder writes the selector and the operands of the operation (R21, R50) and
leaves every other field of the request unwritten. -/

namespace Sys2Proof.Laws.EncodeCanonical

def Statement (i : Instr) : Prop := i.wf = true → (encode i).canonical = encode i

theorem encHdr (t l : Int) : Statement (.encHdr t l) := fun _ => rfl
theorem decHdr (h : Bytes) : Statement (.decHdr h) := fun _ => rfl
theorem serCi (c : BitVec 16) : Statement (.serCi c) := fun _ => rfl
theorem serState (a b c d : Byte) : Statement (.serState a b c d) := fun _ => rfl
theorem serFreq (c : Byte) (f : BitVec 64) : Statement (.serFreq c f) := fun _ => rfl
theorem buildSetState (c : BitVec 1) (m n : Byte) : Statement (.buildSetState c m n) := fun _ => rfl
theorem buildStop : Statement .buildStop := fun _ => rfl
theorem buildSetFreq (c : Byte) (f : BitVec 64) : Statement (.buildSetFreq c f) := fun _ => rfl

theorem reserved (o : BitVec 4) : Statement (.reserved o) := by
  intro h
  have ho : 8 ≤ o.toNat := of_decide_eq_true h
  unfold Request.canonical
  split <;> simp_all [encode]

end Sys2Proof.Laws.EncodeCanonical
end

