-- ==== Sys2Proof/Laws/Step.lean ====
section
/-! SUPPORT. Everything a step can do. -/

namespace Sys2Proof.Machine

@[simp] theorem State.withFetchWord_params (s : State) (n w : Nat) : (s.withFetchWord n w).params = s.params := rfl
@[simp] theorem State.withFetchWord_pending (s : State) (n w : Nat) : (s.withFetchWord n w).pending = [Request.ofTableWord n w] := rfl
@[simp] theorem State.withFetchWord_resetLine (s : State) (n w : Nat) : (s.withFetchWord n w).resetLine = false := rfl
@[simp] theorem State.withFetchWord_request (s : State) (n w : Nat) : (s.withFetchWord n w).request = s.request := rfl
@[simp] theorem State.withFetchWord_response (s : State) (n w : Nat) : (s.withFetchWord n w).response = s.response := rfl
@[simp] theorem State.withFetchWord_turn (s : State) (n w : Nat) : (s.withFetchWord n w).turn = s.turn := rfl
@[simp] theorem State.withFetchWord_patience (s : State) (n w : Nat) : (s.withFetchWord n w).patience = s.patience := rfl

/-- The place chosen is that of a waiting request. -/
theorem serviceIndex_lt {s : State} (h : s.pending ≠ []) : s.serviceIndex < s.pending.length := by
  unfold State.serviceIndex; split
  · contradiction
  · rename_i q hq; simp [hq]
  · rename_i q r rest hq
    rw [hq]
    split
    · simp
    · exact Nat.mod_lt _ (by simp)

/-- The oldest request is passed over only while it has patience. -/
theorem serviceIndex_eq_zero {s : State} (h : s.patience = 0) : s.serviceIndex = 0 := by
  unfold State.serviceIndex; split <;> simp [h]

theorem serviceIndex_singleton {s : State} {q : Request} (h : s.pending = [q]) : s.serviceIndex = 0 := by
  simp [State.serviceIndex, h]

/-- The three kinds of step: a reset, an idle step, a transaction. -/
theorem step_cases (s : State) :
    (s.resetLine = true ∧ step s = .next s.takeReset) ∨
    (s.resetLine = false ∧ s.pending = [] ∧ step s = .next s) ∨
    (s.resetLine = false ∧ ∃ q, s.pending[s.serviceIndex]? = some q ∧
      step s = exec (decode q) (s.accept s.serviceIndex q)) := by
  by_cases hr : s.resetLine = true
  · exact .inl ⟨hr, by simp [step, hr]⟩
  have hr' : s.resetLine = false := by simpa using hr
  by_cases hp : s.pending = []
  · exact .inr (.inl ⟨hr', hp, by simp [step, hr', hp]⟩)
  · have hk := serviceIndex_lt hp
    exact .inr (.inr ⟨hr', s.pending[s.serviceIndex], List.getElem?_eq_getElem hk,
      by simp [step, hr', List.getElem?_eq_getElem hk]⟩)

end Sys2Proof.Machine
end

