-- ==== Sys2Proof/Tests/Slice0.lean ====
section
/-! SUPPORT. Tests on fixed values, expected results from spec/95_test_vectors.md (V-L1 rows, Part 2) and from the
encodings of spec/30_encoding.md, and one witness for the hypotheses of each statement that has any. -/

namespace Sys2Proof.Tests

open Sys2Proof.Machine Sys2Proof.Safety

/-- The block with `STRICT_ENUMS = strict`, `CAPTURE_FIFO16 = fifo`, and these requests waiting. -/
def block (strict : Bool) (fifo : Byte) (pending : List Request) : State :=
  { params := { strictEnums := strict, captureFifo16 := fifo }, pending := pending, resetLine := false,
    request := none, response := none, turn := 0, patience := 0 }

/-- The response to one request, after one step. -/
def answer (strict : Bool) (fifo : Byte) (q : Request) : Option Response :=
  match step (block strict fifo [q]) with
  | .next t => t.response
  | .fault _ => none
  | .refused _ => none

/-! ## Well-formedness: each check refuses an ill-formed term -/

theorem test_wf_refuses_unreserved : (Instr.reserved 0x7#4).wf = false := by decide
theorem test_wf_accepts_reserved : (Instr.reserved 0x8#4).wf = true := by decide
theorem test_params_wf_refuses_continuous24bit : (Params.mk true 0x80#8).wf = false := by decide

/-! ## Decoding: selectors and operands written out from R50 and R21 -/

theorem test_decode_enc_hdr : decode { op := 0b0000#4, type := -1, length := 8192 } = .encHdr (-1) 8192 := by decide
theorem test_decode_dec_hdr : decode { op := 0b0001#4, hdr := [0x08#8, 0x00#8] } = .decHdr [0x08#8, 0x00#8] := by decide
theorem test_decode_ser_ci : decode { op := 0b0010#4, ci := 0x0019#16 } = .serCi 0x0019#16 := by decide
theorem test_decode_ser_state :
    decode { op := 0b0011#4, chanType := 0x7F#8, stateType := 0x01#8, captureType := 0x80#8, numSamples := 0xFF#8 } =
      .serState 0x7F#8 0x01#8 0x80#8 0xFF#8 := by decide
theorem test_decode_ser_freq :
    decode { op := 0b0100#4, channelId := 0x02#8, freq := 0x0123456789ABCDEF#64 } =
      .serFreq 0x02#8 0x0123456789ABCDEF#64 := by decide
theorem test_decode_build_set_state :
    decode { op := 0b0101#4, complex := 1#1, captureMode := 0x80#8 } = .buildSetState 1#1 0x80#8 0x00#8 := by decide
theorem test_decode_build_stop : decode { op := 0b0110#4, type := 5 } = .buildStop := by decide
theorem test_decode_build_set_freq :
    decode { op := 0b0111#4, channelId := 0x00#8, freq := 14010000#64 } = .buildSetFreq 0x00#8 14010000#64 := by decide
theorem test_decode_reserved_ignores_operands :
    decode { op := 0b1001#4, type := 0, length := 8 } = .reserved 0x9#4 := by decide
theorem test_decode_table_word : decodeTableWord 8 0b0101 = some (.buildSetState 0#1 0x00#8 0x00#8) := by decide
theorem test_decode_table_word_too_short : decodeTableWord 3 0b101 = none := by decide

/-! ## One step per test: at most two per operation, from spec/95_test_vectors.md -/

theorem test_enc_hdr_5_291 : answer true 0x01#8 { op := 0x0#4, type := 5, length := 291 } = some (.bytes [0x23#8, 0xA1#8]) := by decide
theorem test_enc_hdr_negative : answer false 0x01#8 { op := 0x0#4, type := -1, length := 0 } = some (.error .invalidArgument) := by decide
theorem test_dec_hdr_00_1F : answer true 0x01#8 { op := 0x1#4, hdr := [0x00#8, 0x1F#8] } = some (.header 0#3 7936#13) := by decide
theorem test_dec_hdr_three_bytes :
    answer true 0x01#8 { op := 0x1#4, hdr := [0x08#8, 0x00#8, 0x18#8] } = some (.error .malformedFrame) := by decide
theorem test_ser_ci_ABCD : answer false 0x01#8 { op := 0x2#4, ci := 0xABCD#16 } = some (.bytes [0xCD#8, 0xAB#8]) := by decide
theorem test_ser_ci_1800_strict : answer true 0x01#8 { op := 0x2#4, ci := 0x1800#16 } = some (.error .invalidArgument) := by decide
theorem test_ser_state_no_forcing :
    answer true 0x01#8 { op := 0x3#4, chanType := 0x80#8, stateType := 0x02#8, captureType := 0x80#8, numSamples := 0x05#8 } =
      some (.bytes [0x80#8, 0x02#8, 0x80#8, 0x05#8]) := by decide
theorem test_ser_state_unlisted_strict :
    answer true 0x01#8 { op := 0x3#4, chanType := 0x80#8, stateType := 0x03#8, captureType := 0x80#8 } =
      some (.error .invalidArgument) := by decide
theorem test_ser_freq_truncates :
    answer true 0x01#8 { op := 0x4#4, channelId := 0x00#8, freq := 0x0123456789ABCDEF#64 } =
      some (.bytes [0x00#8, 0xEF#8, 0xCD#8, 0xAB#8, 0x89#8, 0x67#8]) := by decide
theorem test_ser_freq_channel_01 :
    answer false 0x01#8 { op := 0x4#4, channelId := 0x01#8, freq := 5#64 } =
      some (.bytes [0x01#8, 0x05#8, 0x00#8, 0x00#8, 0x00#8, 0x00#8]) := by decide
theorem test_build_set_state_forces_num_samples :
    answer true 0x01#8 { op := 0x5#4, complex := 1#1, captureMode := 0x80#8, numSamples := 0x05#8 } =
      some (.bytes [0x08#8, 0x00#8, 0x18#8, 0x00#8, 0x80#8, 0x02#8, 0x80#8, 0x00#8]) := by decide
theorem test_build_set_state_fifo_keeps_num_samples :
    answer true 0x00#8 { op := 0x5#4, complex := 0#1, captureMode := 0x00#8, numSamples := 0x07#8 } =
      some (.bytes [0x08#8, 0x00#8, 0x18#8, 0x00#8, 0x00#8, 0x02#8, 0x00#8, 0x07#8]) := by decide
theorem test_build_stop :
    answer true 0x01#8 { op := 0x6#4 } =
      some (.bytes [0x08#8, 0x00#8, 0x18#8, 0x00#8, 0x00#8, 0x01#8, 0x00#8, 0x00#8]) := by decide
theorem test_build_set_freq_30000000 :
    answer true 0x01#8 { op := 0x7#4, channelId := 0x00#8, freq := 30000000#64 } =
      some (.bytes [0x0A#8, 0x00#8, 0x20#8, 0x00#8, 0x00#8, 0x80#8, 0xC3#8, 0xC9#8, 0x01#8, 0x00#8]) := by decide
theorem test_build_set_freq_unlisted_strict :
    answer true 0x01#8 { op := 0x7#4, channelId := 0x01#8, freq := 7100000#64 } = some (.error .invalidArgument) := by decide
theorem test_reserved_op_9 : answer false 0x01#8 { op := 0x9#4, length := 8 } = some (.error .illegalOperation) := by decide

/-! ## The interface -/

/-- R92: a request in progress at reset gets no response. -/
theorem test_reset_drops_request :
    (step ((block true 0x01#8 [{ op := 0x6#4 }]).assertReset) matches .next { pending := [], response := none, .. }) = true := by
  decide
/-- R98: with its patience spent, the oldest of two waiting requests is the one answered. -/
theorem test_oldest_is_answered :
    (step (block true 0x01#8 [{ op := 0x6#4 }, { op := 0x9#4 }]) matches
      .next { pending := [{ op := 0x9#4, .. }], request := some { op := 0x6#4, .. }, .. }) = true := by decide
/-- V-L1-9: the consumer sees a negative acknowledgement in `02 00`. -/
theorem test_consumer_nak :
    (answer true 0x01#8 { op := 0x1#4, hdr := [0x02#8, 0x00#8] }).bind Response.consumerNak = some true := by decide
/-- spec/95_test_vectors.md P1, step 1. -/
theorem test_assemble_p1_step_1 :
    assemble { strictEnums := true, captureFifo16 := 0x01#8 } .buildSetState
      [.scalar (.sym .complex), .scalar (.sym .continuous24bit)] =
      some { op := 0x5#4, complex := 1#1, captureMode := 0x80#8, numSamples := 0x00#8 } := by decide
/-- R52: an operand that does not fit its width is none. -/
theorem test_assemble_too_wide :
    assemble { strictEnums := true, captureFifo16 := 0x01#8 } .serCi [.scalar (.num 0x10000)] = none := by decide
/-- R77: success is code 0. -/
theorem test_success_code : (Response.bytes []).code = 0 := by decide
theorem test_step_of_a_table_word :
    (match step (State.reset.withFetchWord 8 0b0110) with
      | .next t => t.response
      | .fault _ => none
      | .refused _ => none) = some (.bytes [0x08#8, 0x00#8, 0x18#8, 0x00#8, 0x00#8, 0x01#8, 0x00#8, 0x00#8]) := by decide

/-! ## Witnesses: a state and operands that meet the hypotheses of each statement that has any -/

theorem witness_SelectorChoosesOperation :
    ({ op := 0x0#4 } : Request).op = 0x0#4 ∧ ({ op := 0x1#4 } : Request).op = 0x1#4 ∧
    ({ op := 0x2#4 } : Request).op = 0x2#4 ∧ ({ op := 0x3#4 } : Request).op = 0x3#4 ∧
    ({ op := 0x4#4 } : Request).op = 0x4#4 ∧ ({ op := 0x5#4 } : Request).op = 0x5#4 ∧
    ({ op := 0x6#4 } : Request).op = 0x6#4 ∧ ({ op := 0x7#4 } : Request).op = 0x7#4 ∧
    8 ≤ ({ op := 0x8#4 } : Request).op.toNat ∧ 8 ≤ ({ op := 0xF#4 } : Request).op.toNat := by decide

theorem witness_DecodeOfEncodeIsIdentity :
    (Instr.reserved 0x8#4).wf = true ∧ (Instr.reserved 0xF#4).wf = true ∧ (Instr.encHdr (-1) 8192).wf = true := by decide

theorem witness_StepRunsTheDecodedRequest :
    (block true 0x01#8 [{ op := 0x6#4 }]).resetLine = false ∧
    (block true 0x01#8 [{ op := 0x6#4 }]).pending = [{ op := 0x6#4 }] := by decide

theorem witness_StepAnswersOneWaitingRequest :
    (block true 0x01#8 [{ op := 0x6#4 }, { op := 0x2#4 }]).resetLine = false ∧
    (block true 0x01#8 [{ op := 0x6#4 }, { op := 0x2#4 }]).pending ≠ [] := by decide

theorem witness_ResetAndIdleStepsAnswerNothing :
    (block true 0x01#8 [{ op := 0x6#4 }]).assertReset.resetLine = true ∧
    (block true 0x01#8 []).resetLine = false ∧ (block true 0x01#8 []).pending = [] := by decide

theorem witness_FirstRequestAfterResetAnswersAlike :
    (block true 0x01#8 [{ op := 0x6#4 }]).assertReset.resetLine = true ∧
    (block true 0x01#8 [{ op := 0x2#4 }]).params = (block true 0x01#8 [{ op := 0x6#4 }]).assertReset.params ∧
    (block true 0x01#8 [{ op := 0x2#4 }]).resetLine = false ∧
    (block true 0x01#8 [{ op := 0x2#4 }]).pending = [{ op := 0x2#4 }] := by decide

/-- The invariant is met by a state with a finished transaction and a request waiting, and its step is a transaction. -/
theorem witness_EveryStepKeepsTheInvariant :
    Inv { block true 0x01#8 [{ op := 0x6#4 }] with
      request := some { op := 0x8#4 }, response := some (.error .illegalOperation) } ∧
    ∃ t, step { block true 0x01#8 [{ op := 0x6#4 }] with
      request := some { op := 0x8#4 }, response := some (.error .illegalOperation) } = .next t :=
  ⟨⟨rfl, fun _ _ => rfl, List.mem_singleton.mpr rfl⟩, _, rfl⟩

theorem witness_EveryStepAnswersExactlyOneWaitingRequest :
    (block true 0x01#8 [{ op := 0x6#4 }, { op := 0x6#4 }]).resetLine = false ∧
    (block true 0x01#8 [{ op := 0x6#4 }, { op := 0x6#4 }]).pending ≠ [] := by decide

/-- An oldest request that may be passed over twice, with another one waiting. -/
theorem witness_OldestRequestIsPassedOverAtMostItsPatience :
    ({ block true 0x01#8 [{ op := 0x6#4 }, { op := 0x9#4 }] with patience := 2 } : State).resetLine = false ∧
    ({ block true 0x01#8 [{ op := 0x6#4 }, { op := 0x9#4 }] with patience := 2 } : State).pending ≠ [] := by decide

/-- The first and the last place of two. -/
theorem witness_EveryWaitingRequestIsAnsweredDespiteNewOnes :
    (block true 0x01#8 [{ op := 0x6#4 }, { op := 0x9#4 }]).resetLine = false ∧
    0 < (block true 0x01#8 [{ op := 0x6#4 }, { op := 0x9#4 }]).pending.length ∧
    1 < (block true 0x01#8 [{ op := 0x6#4 }, { op := 0x9#4 }]).pending.length := by decide

theorem witness_WaitingRequestsAreAllAnswered :
    (block true 0x01#8 [{ op := 0x6#4 }, { op := 0x0#4, type := 8 }]).resetLine = false := by decide

theorem witness_OverlappingRequestsEachGetTheirOwnResponse :
    (block false 0x00#8 [{ op := 0x6#4 }, { op := 0x6#4 }, { op := 0x9#4 }]).resetLine = false := by decide

theorem witness_ResponseDependsOnRequestAndParametersAlone :
    (block true 0x01#8 []).params = (block true 0x01#8 [{ op := 0x6#4 }]).params := by decide

theorem witness_OnlyBuildSetStateReadsTheFifoCode :
    (block true 0x01#8 []).params.strictEnums = (block true 0x02#8 []).params.strictEnums ∧
    ∀ c m n, Instr.serState 0x80#8 0x02#8 0x01#8 0x05#8 ≠ .buildSetState c m n := by
  exact ⟨rfl, fun _ _ _ h => nomatch h⟩

/-- One listed operand of each checked operation, under the two settings. -/
theorem witness_ListedMembersAgreeUnderBothSettings :
    (block true 0x01#8 []).params.captureFifo16 = (block false 0x01#8 []).params.captureFifo16 ∧
    ∀ i ∈ [Instr.serCi 0x0018#16, .serCi 0x0020#16, .serState 0#8 0x01#8 0#8 0#8, .serState 0#8 0x02#8 0#8 0#8,
      .serFreq 0x00#8 0#64, .serFreq 0x02#8 0#64, .buildSetFreq 0x00#8 0#64, .buildSetFreq 0x02#8 0#64],
      (∀ ci, i = .serCi ci → ci = 0x0018#16 ∨ ci = 0x0020#16) ∧
      (∀ ch st ct n, i = .serState ch st ct n → st = 0x01#8 ∨ st = 0x02#8) ∧
      (∀ c f, i = .serFreq c f ∨ i = .buildSetFreq c f → c = 0x00#8 ∨ c = 0x02#8) := by
  refine ⟨rfl, fun i hi => ?_⟩
  simp only [List.mem_cons, List.not_mem_nil, or_false] at hi
  rcases hi with rfl | rfl | rfl | rfl | rfl | rfl | rfl | rfl <;> simp +contextual

theorem witness_EncHdrAnswers : ({ op := 0x0#4, type := 8, length := -1 } : Request).op = 0x0#4 := by decide

theorem witness_DecHdrAnswers :
    ({ op := 0x1#4, hdr := [] } : Request).op = 0x1#4 ∧ ([] : Bytes).length ≠ 2 ∧ ([0x08#8] : Bytes).length ≠ 2 ∧
    ([0x08#8, 0x00#8, 0x18#8] : Bytes).length ≠ 2 := by decide

theorem witness_HeaderRoundTrip :
    ((0 : Int) ≤ 0 ∧ (0 : Int) ≤ 7 ∧ (0 : Int) ≤ 0 ∧ (0 : Int) ≤ 8191) ∧
    ((0 : Int) ≤ 7 ∧ (7 : Int) ≤ 7 ∧ (0 : Int) ≤ 8191 ∧ (8191 : Int) ≤ 8191) := by decide

/-- The hypotheses of the second clause, and of its injectivity part, hold of the smallest header taken twice. -/
theorem witness_HeaderConverseAndBijection :
    (0 : Int) ≤ 0 ∧ (0 : Int) ≤ 7 ∧ (0 : Int) ≤ 8191 ∧
    exec (.encHdr 0 0) (block true 0x01#8 []) = exec (.encHdr 0 0) (block true 0x01#8 []) := by
  exact ⟨by decide, by decide, by decide, rfl⟩

theorem witness_SerCiAnswers : ({ op := 0x2#4 } : Request).op = 0x2#4 := by decide
theorem witness_SerStateAnswers : ({ op := 0x3#4 } : Request).op = 0x3#4 := by decide
theorem witness_SerFreqAnswers : ({ op := 0x4#4 } : Request).op = 0x4#4 := by decide
theorem witness_BuildSetStateAnswers : ({ op := 0x5#4 } : Request).op = 0x5#4 := by decide
theorem witness_BuildStopAnswers : ({ op := 0x6#4 } : Request).op = 0x6#4 := by decide
theorem witness_BuildSetFreqAnswers : ({ op := 0x7#4 } : Request).op = 0x7#4 := by decide

theorem witness_FrequencyBitsAbove40AreDiscarded : (5#64).toNat % 2 ^ 40 = (1099511627781#64).toNat % 2 ^ 40 := by decide

/-- A success of each builder. -/
theorem witness_BuilderHeaderStatesItsOwnLength :
    ∀ q ∈ [({ op := 0x5#4 } : Request), { op := 0x6#4 }, { op := 0x7#4 }],
      (match exec (decode q) (block true 0x01#8 []) with
        | .next t => (match t.response with
          | some (.bytes _) => true
          | some (.header _ _) => false
          | some (.error _) => false
          | none => false)
        | .fault _ => false
        | .refused _ => false) = true := by decide

/-- One pair of operations under each of the three cases; the last one's parameter block raises. -/
theorem witness_BuildersComposeTheOperations :
    (∃ c m n, Instr.buildSetState 1#1 0x80#8 0x05#8 = .buildSetState c m n ∧
      Instr.serState 0x80#8 0x02#8 0x80#8 0x00#8 = .serState (if c = 1#1 then 0x80#8 else 0x00#8) 0x02#8 m
        (if m = (block true 0x01#8 []).params.captureFifo16 then n else 0x00#8)) ∧
    (Instr.buildStop = .buildStop ∧
      Instr.serState 0x00#8 0x01#8 0x00#8 0x00#8 = .serState 0x00#8 0x01#8 0x00#8 0x00#8) ∧
    (∃ c f, Instr.buildSetFreq 0x01#8 5#64 = .buildSetFreq c f ∧ Instr.serFreq 0x01#8 5#64 = .serFreq c f) :=
  ⟨⟨1#1, 0x80#8, 0x05#8, rfl, by decide⟩, ⟨rfl, rfl⟩, ⟨_, _, rfl, rfl⟩⟩

/-- The two sides of the bound. -/
theorem witness_CompositionChecksTheTotalLength :
    8191 < 4 + (List.replicate 8188 0x00#8).length ∧ 4 + (List.replicate 8187 0x00#8).length ≤ 8191 ∧
    SetState = 0x0018#16 := by
  rw [List.length_replicate, List.length_replicate]; decide

theorem witness_ReservedSelectorAnswers : 8 ≤ ({ op := 0x8#4 } : Request).op.toNat := by decide

theorem witness_IllegalOperationInExactlyOneCase :
    8 ≤ ({ op := 0x9#4 } : Request).op.toNat ∧
    ({ op := 0x9#4, length := 8 } : Request).op = ({ op := 0x9#4 } : Request).op := by decide

/-- A success, and DEC_HDR with and without its two bytes. -/
theorem witness_OutputLengthsAreFixed :
    answer true 0x01#8 { op := 0x2#4, ci := SetState } = some (.bytes [0x18#8, 0x00#8]) ∧
    ([0x08#8, 0x00#8] : Bytes).length = 2 ∧ ([] : Bytes).length ≠ 2 := by decide

end Sys2Proof.Tests
end

section
/-! What the pure operations can give, stated once: the two outcomes of each checked operation, and the bytes of each
builder. -/

namespace Sys2Proof.Machine

theorem encHdr_cases (t l : Int) :
    encHdr t l = .ok (le16 (packHeader (BitVec.ofInt 3 t) (BitVec.ofInt 13 l))) ∨
      encHdr t l = .error .invalidArgument := by
  by_cases h : 0 ≤ t ∧ t ≤ 7 ∧ 0 ≤ l ∧ l ≤ 8191
  · obtain ⟨ht0, ht7, hl⟩ := h
    exact .inl (encHdr_ok ⟨ht0, ht7⟩ hl)
  · exact .inr (encHdr_error h)

theorem decHdr_cases (h : Bytes) : (∃ x, decHdr h = .ok x) ∨ decHdr h = .error .malformedFrame := by
  by_cases hl : h.length = 2
  · obtain ⟨b0, b1, rfl⟩ := List.length_eq_two.mp hl
    exact .inl ⟨_, decHdr_two b0 b1⟩
  · exact .inr (decHdr_error hl)

theorem serCi_cases (p : Params) (ci : BitVec 16) :
    serCi p ci = .ok (le16 ci) ∨ serCi p ci = .error .invalidArgument := by
  unfold serCi; split <;> simp

theorem serState_cases (p : Params) (ch st ct n : Byte) :
    serState p ch st ct n = .ok [ch, st, ct, n] ∨ serState p ch st ct n = .error .invalidArgument := by
  unfold serState; split <;> simp

theorem serFreq_cases (p : Params) (c : Byte) (f : BitVec 64) :
    serFreq p c f = .ok (c :: le40 (trunc40 f)) ∨ serFreq p c f = .error .invalidArgument := by
  unfold serFreq; split <;> simp

/-- A SET_STATE command around a 4-byte block (R43, R68). -/
theorem cmd_setState (p : Params) (ch st ct n : Byte) :
    cmd p SetState [ch, st, ct, n] = .ok [0x08#8, 0x00#8, 0x18#8, 0x00#8, ch, st, ct, n] := by
  rw [cmd_listed (by decide) (by simp)]
  simp [header_setState, le16_setState]

/-- BUILD_SET_STATE never raises: its state type is the listed member Run (R70). -/
theorem buildSetState_eq (p : Params) (c : BitVec 1) (m n : Byte) :
    buildSetState p c m n = .ok [0x08#8, 0x00#8, 0x18#8, 0x00#8, channelType c, Run, m, forcedNumSamples p m n] := by
  rw [buildSetState, serState_listed _ _ _ (by decide), command_ok, cmd_setState]

/-- BUILD_STOP never raises: its state type is the listed member Idle (R73). -/
theorem buildStop_eq (p : Params) :
    buildStop p = .ok [0x08#8, 0x00#8, 0x18#8, 0x00#8, 0x00#8, Idle, 0x00#8, 0x00#8] := by
  rw [buildStop, serState_listed _ _ _ (by decide), command_ok, cmd_setState]

/-- BUILD_SET_FREQ puts the header and the control item before SER_FREQ's block, or raises SER_FREQ's error (R74). -/
theorem buildSetFreq_cases (p : Params) (c : Byte) (f : BitVec 64) :
    buildSetFreq p c f = .ok (0x0A#8 :: 0x00#8 :: 0x20#8 :: 0x00#8 :: c :: le40 (trunc40 f)) ∨
      buildSetFreq p c f = .error .invalidArgument := by
  rcases serFreq_cases p c f with h | h
  · left
    rw [buildSetFreq, h, command_ok, cmd_listed (by decide) (by simp)]
    simp [header_setFrequency, le16_setFrequency]
  · right
    rw [buildSetFreq, h, command_error]

end Sys2Proof.Machine
end

section
/-! The response each operation's rule gives, as a function of the parameters and the operation: what `exec` answers from
every state, and of an allowed form, length and error. -/

namespace Sys2Proof.Safety

open Machine

/-- DEC_HDR's response (R22, R58): the decoded fields, or the error. -/
def headerResponse : Except ErrorCode (MsgType × MsgLength) → Response
  | .ok x => .header x.1 x.2
  | .error e => .error e

/-- The response of operation `i` under the parameters `p` (R14). -/
def ruleResponse (p : Params) : Instr → Response
  | .encHdr t l => .ofResult (encHdr t l)
  | .decHdr h => headerResponse (decHdr h)
  | .serCi ci => .ofResult (serCi p ci)
  | .serState ch st ct n => .ofResult (serState p ch st ct n)
  | .serFreq c f => .ofResult (serFreq p c f)
  | .buildSetState c m n => .ofResult (buildSetState p c m n)
  | .buildStop => .ofResult (buildStop p)
  | .buildSetFreq c f => .ofResult (buildSetFreq p c f)
  | .reserved _ => .error .illegalOperation

/-- Every operation completes, gives its rule's response, and changes nothing else (R11, R14). -/
theorem exec_eq (i : Instr) (s : State) : exec i s = .next { s with response := some (ruleResponse s.params i) } := by
  cases i with
  | decHdr h => exact (execDecHdr_eq h s).trans (by cases hd : decHdr h <;> simp [ruleResponse, headerResponse, hd])
  | encHdr | serCi | serState | serFreq | buildSetState | buildStop | buildSetFreq | reserved => rfl

theorem answers_ruleResponse (p : Params) (i : Instr) : Answers p i (ruleResponse p i) := by
  rintro u rfl
  exact exec_eq i u

/-- Bytes of the operation's length, or InvalidArgument where it may raise it, fit the operation. -/
theorem fits_ofResult {i : Instr} {r : Result} {s : Bytes} (hs : i.outputLength = some s.length)
    (he : .invalidArgument ∈ i.errors) (h : r = .ok s ∨ r = .error .invalidArgument) : Fits i (.ofResult r) := by
  obtain rfl | rfl := h
  · exact hs
  · exact he

/-- The rules answer only with the forms, lengths and errors of R22, R31 and R77. -/
theorem fits_ruleResponse (p : Params) (i : Instr) : Fits i (ruleResponse p i) := by
  cases i with
  | encHdr t l => exact fits_ofResult rfl (List.mem_singleton.mpr rfl) (encHdr_cases t l)
  | decHdr h =>
    obtain ⟨x, hd⟩ | hd := decHdr_cases h
    · simp [ruleResponse, headerResponse, hd, Fits, Instr.answersHeader]
    · simp [ruleResponse, headerResponse, hd, Fits, Instr.errors]
  | serCi ci => exact fits_ofResult rfl (List.mem_singleton.mpr rfl) (serCi_cases p ci)
  | serState ch st ct n => exact fits_ofResult rfl (List.mem_singleton.mpr rfl) (serState_cases p ch st ct n)
  | serFreq c f => exact fits_ofResult rfl (List.mem_singleton.mpr rfl) (serFreq_cases p c f)
  | buildSetState c m n => rw [ruleResponse, buildSetState_eq]; rfl
  | buildStop => rw [ruleResponse, buildStop_eq]; rfl
  | buildSetFreq c f => exact fits_ofResult rfl (List.mem_singleton.mpr rfl) (buildSetFreq_cases p c f)
  | reserved o => exact List.mem_singleton.mpr rfl

end Sys2Proof.Safety
end

section
/-! Steps and runs: a transaction with its response, the invariant, the parameters. -/

namespace Sys2Proof.Safety

open Machine

/-- The three kinds of step, a transaction with the state it ends in (R20, R91). -/
theorem step_next_cases (s : State) :
    (s.resetLine = true ∧ step s = .next s.takeReset) ∨
    (s.resetLine = false ∧ s.pending = [] ∧ step s = .next s) ∨
    (s.resetLine = false ∧ ∃ q, s.pending[s.serviceIndex]? = some q ∧
      step s = .next ((s.accept s.serviceIndex q).respond (ruleResponse s.params (decode q)))) := by
  obtain h | h | ⟨hr, q, hq, h⟩ := step_cases s
  · exact .inl h
  · exact .inr (.inl h)
  · exact .inr (.inr ⟨hr, q, hq, h.trans (exec_eq _ _)⟩)

/-- The state right after a transaction meets the invariant, whatever the ports held before it. -/
theorem inv_transaction {s : State} (h : s.params.wf = true) (k : Nat) (q : Request) :
    Inv ((s.accept k q).respond (ruleResponse s.params (decode q))) :=
  ⟨h, answers_ruleResponse _ _, fits_ruleResponse _ _⟩

theorem step_keeps_inv {s t : State} (hs : Inv s) (h : step s = .next t) : Inv t := by
  obtain ⟨-, h'⟩ | ⟨-, -, h'⟩ | ⟨-, q, -, h'⟩ := step_next_cases s <;>
    obtain rfl := Host.Outcome.next.inj (h.symm.trans h')
  · exact hs
  · exact hs
  · obtain ⟨hwf, -⟩ := hs
    exact inv_transaction hwf _ q

/-- No step stops the block or changes its parameters (R19, R93, R98). -/
theorem step_keeps_params (s : State) : ∃ t, step s = .next t ∧ t.params = s.params := by
  obtain ⟨-, h⟩ | ⟨-, -, h⟩ | ⟨-, q, -, h⟩ := step_next_cases s <;> exact ⟨_, h, rfl⟩

theorem run_succ {s t : State} (h : step s = .next t) (n : Nat) : core.run (n + 1) s = core.run n t := by
  have hc : core.step s = .next t := h
  simp only [Host.Core.run, hc]

/-- The induction over a run: what every step answers with and keeps, every run does. -/
theorem run_keeps {P : State → Prop} (hstep : ∀ s, P s → ∃ t, step s = .next t ∧ P t) (n : Nat) {s : State} (hs : P s) :
    ∃ t, core.run n s = .next t ∧ P t := by
  induction n generalizing s with
  | zero => exact ⟨s, rfl, hs⟩
  | succ n ih =>
    obtain ⟨t, ht, hPt⟩ := hstep s hs
    rw [run_succ ht]
    exact ih hPt

end Sys2Proof.Safety
end

section
/-! The codes `CAPTURE_FIFO16` may have, the other direction of `fifoCode_ne`. -/

namespace Sys2Proof.Config

/-- Every byte but 0x80 has an index: its own value below 0x80, and one less above. -/
theorem exists_fifoCode_eq {b : Byte} (h : b ≠ 0x80#8) : ∃ i, fifoCode i = b := by
  have hb := b.isLt
  have hne : b.toNat ≠ 0x80 := fun he => h (BitVec.eq_of_toNat_eq he)
  by_cases hlt : b.toNat < 0x80
  · exact ⟨⟨b.toNat, by omega⟩, by simp [fifoCode, hlt]⟩
  · have hge : ¬ b.toNat - 1 < 0x80 := by omega
    have hsub : b.toNat - 1 + 1 = b.toNat := by omega
    exact ⟨⟨b.toNat - 1, by omega⟩, by simp [fifoCode, hge, hsub]⟩

end Sys2Proof.Config
end

section
/-! The statements of spec/00_scope.md's family. -/

namespace Sys2Proof.Certificates

open Machine Safety

/-- Settles O15: a reset or an idle step leaves the parameters and the ports, a transaction gives its rule's response. -/
theorem everyStepKeepsTheInvariant : Obligations.EveryStepKeepsTheInvariant :=
  fun _ _ hs h => step_keeps_inv hs h

/-- Settles O17, by the induction over a run: every step keeps the parameters. -/
theorem runsNeverChangeTheParameters : Obligations.RunsNeverChangeTheParameters := by
  intro n s
  refine run_keeps (P := fun u => u.params = s.params) (fun u hu => ?_) n rfl
  obtain ⟨t, ht, hp⟩ := step_keeps_params u
  exact ⟨t, ht, hp.trans hu⟩

/-- Settles O13: no code is 0x80, and every other byte has an index. -/
theorem fifoCodesAreExactlyTheLegalOnes : Obligations.FifoCodesAreExactlyTheLegalOnes := by
  intro b
  constructor
  · rintro ⟨i, rfl⟩
    exact Config.fifoCode_ne i
  · exact Config.exists_fifoCode_eq

/-- Settles O14: the block's parameters are legal, and both ports are empty. -/
theorem invariantHoldsAtReset : Obligations.InvariantHoldsAtReset := ⟨Config.params_wf, trivial⟩

end Sys2Proof.Certificates
end

section
/-! Decoder and encoder as inverses of each other, up to the operands a selector does not read. -/

namespace Sys2Proof

/-- R51, R80: a reserved selector reads no operand. -/
theorem canonical_reserved {q : Request} (h : 8 ≤ q.op.toNat) : q.canonical = { op := q.op } := by
  unfold Request.canonical
  split
  case h_8 => rfl
  all_goals omega

/-- An operation's selector chooses it again; of a reserved one this holds because it is 0x8 or above (R50, R51). -/
theorem decode_encode {i : Instr} (h : i.wf = true) : decode (encode i) = i := by
  cases i with
  | reserved o => exact decode_reserved (q := encode (.reserved o)) (of_decide_eq_true h)
  | encHdr | decHdr | serCi | serState | serFreq | buildSetState | buildStop | buildSetFreq => rfl

theorem decode_wf (q : Request) : (decode q).wf = true := by
  obtain h | h | h | h | h | h | h | h | h := selector_cases q.op
  on_goal 9 =>
    rw [decode_reserved h]
    exact decide_eq_true h
  all_goals simp [decode, h, Instr.wf]

/-- Encoding writes back the operands that decoding read, and no other (R21). -/
theorem encode_decode (q : Request) : encode (decode q) = q.canonical := by
  obtain h | h | h | h | h | h | h | h | h := selector_cases q.op
  on_goal 9 =>
    rw [decode_reserved h, canonical_reserved h, encode]
  all_goals simp [decode, h, encode, Request.canonical]

theorem decode_canonical (q : Request) : decode q.canonical = decode q := by
  rw [← encode_decode, decode_encode (decode_wf q)]

/-- Two requests select the same operation exactly when they differ in unread operands only. -/
theorem decode_eq_iff (q q' : Request) : decode q = decode q' ↔ q.canonical = q'.canonical := by
  constructor <;> intro h
  · rw [← encode_decode q, h, encode_decode]
  · rw [← decode_canonical q, h, decode_canonical]

end Sys2Proof
end

section
/-! A step with requests waiting and reset not asserted: which request it takes, and what it leaves waiting. -/

namespace Sys2Proof.Safety

open Machine

variable {s : State} {q : Request}

/-- Such a step is neither a reset nor an idle step, so it is a transaction (R20). -/
theorem step_transaction (hr : s.resetLine = false) (hp : s.pending ≠ []) :
    ∃ q, s.pending[s.serviceIndex]? = some q ∧ step s = exec (decode q) (s.accept s.serviceIndex q) := by
  obtain ⟨hr', -⟩ | ⟨-, hp', -⟩ | ⟨-, h⟩ := step_cases s
  · simp [hr] at hr'
  · contradiction
  · exact h

/-- The only waiting request is the one taken; the next to come is the oldest at once (log entry 4). -/
theorem accept_only (h : s.pending = [q]) :
    s.accept 0 q = { s with
      pending := [], request := some q, response := none, turn := s.turn + 1,
      patience := Config.patience (s.turn + 1) [] } := by
  simp [State.accept, State.patienceAfter_oldest, h]

/-- Taking a request removes that one and no other. -/
theorem cons_accept_pending_perm {k : Nat} (h : s.pending[k]? = some q) :
    (q :: (s.accept k q).pending).Perm s.pending := by
  obtain ⟨hk, rfl⟩ := List.getElem?_eq_some_iff.mp h
  exact List.getElem_cons_eraseIdx_perm hk

/-- Taking a request keeps the others in the order they were issued. -/
theorem accept_pending_sublist (k : Nat) (q : Request) : (s.accept k q).pending.Sublist s.pending :=
  List.eraseIdx_sublist ..

end Sys2Proof.Safety
end

section
/-! The statements of spec/10_state.md's family. -/

namespace Sys2Proof.Certificates

open Machine Safety

/-- Settles O2, operation by operation. -/
theorem decodeOfEncodeIsIdentity : Obligations.DecodeOfEncodeIsIdentity := fun _ h => decode_encode h

/-- Settles O3: decoding and encoding lose the unlisted operands and nothing else. -/
theorem decodeReadsListedOperandsOnly : Obligations.DecodeReadsListedOperandsOnly :=
  fun q => ⟨decode_wf q, encode_decode q, decode_eq_iff q⟩

/-- Settles O9: the request taken is the one at the place the block serves. -/
theorem stepAnswersOneWaitingRequest : Obligations.StepAnswersOneWaitingRequest := by
  intro s hr hp
  obtain ⟨q, hq, h⟩ := step_transaction hr hp
  exact ⟨s.serviceIndex, q, s.patienceAfter s.serviceIndex, hq, h⟩

/-- Settles O20: the state after the step is the one that took the request, with its rule's response. -/
theorem everyStepAnswersExactlyOneWaitingRequest : Obligations.EveryStepAnswersExactlyOneWaitingRequest := by
  intro s hr hp
  obtain ⟨q, hq, h⟩ := step_transaction hr hp
  exact ⟨q, ruleResponse s.params (decode q), _, h.trans (exec_eq _ _), cons_accept_pending_perm hq,
    accept_pending_sublist _ q, rfl, rfl, answers_ruleResponse _ _, rfl, hr⟩

/-- Settles O23: the response is a function of the operation and the parameters. -/
theorem responseDependsOnRequestAndParametersAlone : Obligations.ResponseDependsOnRequestAndParametersAlone := by
  intro i s u h
  exact ⟨ruleResponse s.params i, exec_eq i s, answers_ruleResponse s.params i u h.symm⟩

/-- Settles O8: the only waiting request stands at the place the block serves. -/
theorem stepRunsTheDecodedRequest : Obligations.StepRunsTheDecodedRequest := by
  intro s q hr hp
  obtain ⟨q', hq, h⟩ := step_transaction hr (by simp [hp])
  rw [serviceIndex_singleton hp] at hq h
  obtain rfl : q = q' := by simpa [hp] using hq
  rw [h, accept_only hp]

/-- Settles O12: the ports are empty, and the block's parameters are legal. -/
theorem resetStateHoldsNothing : Obligations.ResetStateHoldsNothing := ⟨rfl, rfl, rfl, rfl, Config.params_wf⟩

end Sys2Proof.Certificates
end

section
/-! The lengths of R31 as consequences of what fits an operation, and DEC_HDR's response by the number of its bytes. -/

namespace Sys2Proof.Safety

open Machine

/-- DEC_HDR is the one operation that answers with a header (R22). -/
theorem eq_decHdr_of_answersHeader {i : Instr} (h : i.answersHeader = true) : ∃ hdr, i = .decHdr hdr := by
  cases i with
  | decHdr hdr => exact ⟨hdr, rfl⟩
  | encHdr | serCi | serState | serFreq | buildSetState | buildStop | buildSetFreq | reserved => exact nomatch h

/-- Two bytes are a header (R58). -/
theorem ruleResponse_decHdr_of_length_eq_two (p : Params) {hdr : Bytes} (h : hdr.length = 2) :
    ∃ t l, ruleResponse p (.decHdr hdr) = .header t l := by
  obtain ⟨b0, b1, rfl⟩ := List.length_eq_two.mp h
  exact ⟨headerType b1, headerLength b0 b1, rfl⟩

/-- Any other number of bytes is a malformed frame (R58, R79). -/
theorem ruleResponse_decHdr_of_length_ne_two (p : Params) {hdr : Bytes} (h : hdr.length ≠ 2) :
    ruleResponse p (.decHdr hdr) = .error .malformedFrame := by
  rw [ruleResponse, decHdr_error h, headerResponse]

end Sys2Proof.Safety
end

section
/-! The transactions of a run without reset: every waiting request with its rule's response, in the order of service. -/

namespace Sys2Proof.Safety

open Machine

variable {s : State}

/-- The transaction that answers `q` under the parameters `p`. -/
def answered (p : Params) (q : Request) : Request × Response := (q, ruleResponse p (decode q))

/-- A step that takes `q` adds `q` with its rule's response to the transactions of the steps after it. -/
theorem transactions_succ (hr : s.resetLine = false) {q : Request} (hq : s.pending[s.serviceIndex]? = some q)
    (h : step s = exec (decode q) (s.accept s.serviceIndex q)) (n : Nat) :
    transactions (n + 1) s = answered s.params q ::
      transactions n ((s.accept s.serviceIndex q).respond (ruleResponse s.params (decode q))) := by
  have hne : s.pending ≠ [] := by
    intro he
    simp [he] at hq
  rw [exec_eq] at h
  simp [transactions, h, transaction, hr, hne, answered, State.respond]

/-- In as many steps as requests wait, each of them has its transaction, in some order (R35, R90). -/
theorem transactions_perm_answered {n : Nat} (hr : s.resetLine = false) (hn : s.pending.length = n) :
    (transactions n s).Perm (s.pending.map (answered s.params)) := by
  induction n generalizing s with
  | zero => simp [transactions, List.length_eq_zero_iff.mp hn]
  | succ n ih =>
    obtain ⟨q, hq, h⟩ := step_transaction hr (List.ne_nil_of_length_eq_add_one hn)
    have hperm := cons_accept_pending_perm hq
    have hlen : (s.accept s.serviceIndex q).pending.length = n := Nat.succ.inj (hperm.length_eq.trans hn)
    rw [transactions_succ hr hq h]
    have hrest := ih (s := (s.accept s.serviceIndex q).respond (ruleResponse s.params (decode q))) hr hlen
    exact (hrest.cons _).trans (hperm.map (answered s.params))

end Sys2Proof.Safety
end

section
/-! The statements of spec/20_memory.md's family. -/

namespace Sys2Proof.Certificates

open Machine Safety

/-- Settles O19: the transactions are the waiting requests, each with its rule's response, permuted. -/
theorem overlappingRequestsEachGetTheirOwnResponse : Obligations.OverlappingRequestsEachGetTheirOwnResponse := by
  intro s hr
  have hperm := transactions_perm_answered hr rfl
  refine ⟨by simpa [answered, Function.comp_def] using hperm.map Prod.fst, fun x hx => ?_⟩
  obtain ⟨q, -, rfl⟩ := List.mem_map.mp (hperm.mem_iff.mp hx)
  exact answers_ruleResponse s.params (decode q)

/-- Settles O24: an operation changes the response alone, and the next one replaces that without reading it. -/
theorem earlierRequestsLeaveNoTrace : Obligations.EarlierRequestsLeaveNoTrace :=
  fun i j s => ⟨_, exec_eq i s, (exec_eq j _).trans (exec_eq j s).symm⟩

/-- Settles O47: the response is the rule's, which fits the operation. -/
theorem outputLengthsAreFixed : Obligations.OutputLengthsAreFixed := by
  intro i s
  have hfits := fits_ruleResponse s.params i
  refine ⟨_, exec_eq i s, fun bs hbs => ?_, fun ty l hh => ?_, ?_⟩
  · rw [Option.some.inj hbs] at hfits
    have hlen : i.outputLength = some bs.length := hfits
    cases i with
    | decHdr | reserved => exact nomatch hlen
    | encHdr | serCi | serState | serFreq | buildSetState | buildStop | buildSetFreq =>
      exact (Option.some.inj hlen).symm
  · rw [Option.some.inj hh] at hfits
    exact eq_decHdr_of_answersHeader hfits
  · rintro hdr rfl
    refine ⟨fun hl => ?_, fun hl => congrArg some (ruleResponse_decHdr_of_length_ne_two s.params hl)⟩
    obtain ⟨ty, l, h⟩ := ruleResponse_decHdr_of_length_eq_two s.params hl
    exact ⟨ty, l, congrArg some h⟩

end Sys2Proof.Certificates
end

section
/-! The header value as its two fields side by side (R39, R40): type above length, and the length split at the byte border. -/

namespace Sys2Proof.Machine

/-- Two fields side by side are the upper one, shifted over the lower one's width, OR the lower one. -/
theorem append_eq_shiftLeft_or {v w : Nat} (x : BitVec v) (y : BitVec w) :
    x ++ y = (x.setWidth (v + w) <<< w) ||| y.setWidth (v + w) := by
  rw [BitVec.append_def, BitVec.shiftLeftZeroExtend_eq, BitVec.setWidth'_eq]

/-- The OR of R39 joins disjoint bits: the type stands above the length. -/
theorem packHeader_eq_append (t : MsgType) (l : MsgLength) : packHeader t l = t ++ l := by
  rw [append_eq_shiftLeft_or, BitVec.or_comm, packHeader]

/-- The length is its low byte OR its high five bits, shifted over that byte. -/
theorem setWidth_length_eq_or (l : MsgLength) :
    l.setWidth 16 = (l.extractLsb' 0 8).setWidth 16 ||| ((l.extractLsb' 8 5).setWidth 16 <<< 8) := by
  apply BitVec.eq_of_getLsbD_eq
  intro i hi
  simp only [BitVec.getLsbD_or, BitVec.getLsbD_setWidth, BitVec.getLsbD_shiftLeft, BitVec.getLsbD_extractLsb']
  by_cases h : i < 8
  · simp [h, hi]
  · have hadd : 8 + (i - 8) = i := by omega
    by_cases h13 : i < 13
    · have hsub : i - 8 < 5 ∧ i - 8 < 16 := by omega
      simp [h, hi, hadd, hsub]
    · simp [h, hi, hadd, l.getLsbD_of_ge i (by omega)]

/-- The header's value is a sum, its fields being disjoint (R39). -/
theorem toNat_packHeader (t : MsgType) (l : MsgLength) : (packHeader t l).toNat = l.toNat + t.toNat * 8192 := by
  rw [packHeader_eq_append, BitVec.toNat_append, ← Nat.shiftLeft_add_eq_or_of_lt l.isLt, Nat.shiftLeft_eq, Nat.add_comm]

/-- The first byte on the wire is the length's low byte (R40). -/
theorem extractLsb'_packHeader_low (t : MsgType) (l : MsgLength) :
    (packHeader t l).extractLsb' 0 8 = l.extractLsb' 0 8 := by
  rw [packHeader_eq_append, BitVec.extractLsb'_append_eq_of_add_le (by decide)]

/-- The second byte on the wire is the type above the length's high five bits (R40). -/
theorem extractLsb'_packHeader_high (t : MsgType) (l : MsgLength) :
    (packHeader t l).extractLsb' 8 8 = t ++ l.extractLsb' 8 5 := by
  rw [packHeader_eq_append, BitVec.extractLsb'_append_eq_ite]
  simp

/-- The wire bytes of a header (R40). -/
theorem le16_packHeader (t : MsgType) (l : MsgLength) :
    le16 (packHeader t l) = [l.extractLsb' 0 8, t ++ l.extractLsb' 8 5] := by
  rw [le16, extractLsb'_packHeader_low, extractLsb'_packHeader_high]

end Sys2Proof.Machine
end

section
/-! The assembler of R55: an operand's numeral is read back as the operand, whatever its width. -/

namespace Sys2Proof.Machine

/-- A value below `2^n` fits an operand of width `n` (R52). -/
theorem bits_num_toNat (p : Params) {n : Nat} (v : BitVec n) : (AsmScalar.num v.toNat).bits p n = some v := by
  have hv : (v.toNat : Int) < 2 ^ n := by exact_mod_cast v.isLt
  simp [AsmScalar.bits, AsmScalar.value, hv]

/-- A symbol stands for the numeral of its value (R55). -/
theorem bits_sym (p : Params) (x : AsmSymbol) (n : Nat) :
    (AsmScalar.sym x).bits p n = (AsmScalar.num (x.value p)).bits p n := rfl

theorem bits_channel1 (p : Params) : (AsmScalar.sym .channel1).bits p 8 = some Channel1 :=
  (bits_sym p .channel1 8).trans (bits_num_toNat p Channel1)

theorem bits_num_zero (p : Params) (n : Nat) : (AsmScalar.num 0).bits p n = some 0#n := by
  simpa using bits_num_toNat p 0#n

/-- A bracketed list of numerals is read back byte by byte. -/
theorem asmBytes_map_num (p : Params) (h : Bytes) : asmBytes p (h.map fun b => .num b.toNat) = some h := by
  induction h with
  | nil => rfl
  | cons b bs ih => simp [asmBytes, bits_num_toNat, ih]

end Sys2Proof.Machine
end

section
/-! The statements of spec/30_encoding.md's family. -/

namespace Sys2Proof.Certificates

open Machine Safety

/-- Settles O6: every operand's numeral is read back, DEC_HDR's list by induction. -/
theorem everyOperationCanBeWritten : Obligations.EveryOperationCanBeWritten := by
  intro p
  refine ⟨fun t l => rfl, fun h => ?decHdr, fun c => ?_, fun ch st ct n => ?_, fun c f => ?_, fun c m n => ?_, rfl,
    fun c f => ?_⟩
  case decHdr => simp [assemble, encode, asmBytes_map_num]
  all_goals simp [assemble, encode, bits_num_toNat]

/-- Settles O31: the fields are disjoint, so the OR is the two fields side by side. -/
theorem headerPackingFormula : Obligations.HeaderPackingFormula := by
  intro t l
  refine ⟨rfl, ?_, toNat_packHeader t l, ?_⟩
  · rw [packHeader, setWidth_length_eq_or]
    ac_rfl
  · rw [le16_packHeader, append_eq_shiftLeft_or]

/-- Settles O1, selector by selector. -/
theorem selectorChoosesOperation : Obligations.SelectorChoosesOperation := fun _ =>
  ⟨decode_encHdr, decode_decHdr, decode_serCi, decode_serState, decode_serFreq, decode_buildSetState, decode_buildStop,
    decode_buildSetFreq, decode_reserved⟩

/-- Settles O4, by evaluating the decoder on each word. -/
theorem writtenSelectorsDecode : Obligations.WrittenSelectorsDecode := by
  unfold Obligations.WrittenSelectorsDecode
  decide

/-- Settles O5: the symbol Channel1 is read as Channel1, and the numeral 0 as the default. -/
theorem pseudoAndDefaultExpand : Obligations.PseudoAndDefaultExpand := by
  intro p f c m
  constructor
  · simp [assemble, bits_channel1]
  · simp [assemble, bits_num_zero]

/-- Settles O7: each value is its named constant's, and a symbol is read through its value alone. -/
theorem symbolsHaveTheirValues : Obligations.SymbolsHaveTheirValues := fun p =>
  ⟨⟨rfl, rfl, rfl, rfl, rfl, rfl, rfl, rfl, rfl, rfl⟩, fun x n => ⟨rfl, bits_sym p x n⟩⟩

/-- Settles O43: the operation's rule gives IllegalOperation. -/
theorem reservedSelectorAnswers : Obligations.ReservedSelectorAnswers :=
  ⟨fun _ => decode_reserved, fun s op => exec_eq (.reserved op) s⟩

end Sys2Proof.Certificates
end

section
/-! The header codec on fields: ENC_HDR's accepted operands are the pairs of a 3-bit type and a 13-bit length, and encoding
and decoding such pairs are inverse to each other (R56 to R60). -/

namespace Sys2Proof.Machine

/-- An integer below `2^n` is the value of a field of width `n` (R52). -/
theorem exists_toNat_eq {n : Nat} {x : Int} (h0 : 0 ≤ x) (h : x < 2 ^ n) : ∃ v : BitVec n, x = v.toNat := by
  refine ⟨BitVec.ofInt n x, ?_⟩
  have hmod : x % ((2 ^ n : Nat) : Int) = x := Int.emod_eq_of_lt h0 (by exact_mod_cast h)
  rw [BitVec.toNat_ofInt, hmod, Int.toNat_of_nonneg h0]

theorem toNat_fields_in_range (t : MsgType) (l : MsgLength) :
    (0 ≤ (t.toNat : Int) ∧ (t.toNat : Int) ≤ 7) ∧ 0 ≤ (l.toNat : Int) ∧ (l.toNat : Int) ≤ 8191 := by
  have ht := t.isLt
  have hl := l.isLt
  omega

/-- The operands in R56's ranges are the values of a header's fields. -/
theorem exists_fields {t l : Int} (ht : 0 ≤ t ∧ t ≤ 7) (hl : 0 ≤ l ∧ l ≤ 8191) :
    ∃ (t' : MsgType) (l' : MsgLength), t = t'.toNat ∧ l = l'.toNat := by
  obtain ⟨ht0, ht7⟩ := ht
  obtain ⟨hl0, hl8191⟩ := hl
  obtain ⟨t', rfl⟩ := exists_toNat_eq (n := 3) ht0 (by omega)
  obtain ⟨l', rfl⟩ := exists_toNat_eq (n := 13) hl0 (by omega)
  exact ⟨t', l', rfl, rfl⟩

theorem encHdr_toNat (t : MsgType) (l : MsgLength) : encHdr t.toNat l.toNat = .ok (le16 (packHeader t l)) := by
  obtain ⟨ht, hl⟩ := toNat_fields_in_range t l
  simp [encHdr_ok ht hl]

/-- The two bytes on the wire as arithmetic on the fields' values (R40, R56). -/
theorem le16_packHeader_eq_ofNat (t : MsgType) (l : MsgLength) :
    le16 (packHeader t l) = [BitVec.ofNat 8 (l.toNat % 256), BitVec.ofNat 8 (32 * t.toNat + l.toNat / 256)] := by
  have hlow : (l.toNat + t.toNat * 8192) % 256 = l.toNat % 256 := by omega
  have hhigh : (l.toNat + t.toNat * 8192) / 256 = 32 * t.toNat + l.toNat / 256 := by omega
  rw [le16_eq, toNat_packHeader, hhigh, ← hlow]
  simp [← BitVec.toNat_inj]

theorem headerType_eq_ofNat (b1 : Byte) : headerType b1 = BitVec.ofNat 3 (b1.toNat / 32) := by
  rw [← toNat_headerType, BitVec.ofNat_toNat, BitVec.setWidth_eq]

theorem headerLength_eq_ofNat (b0 b1 : Byte) :
    headerLength b0 b1 = BitVec.ofNat 13 (b0.toNat + 256 * (b1.toNat % 32)) := by
  rw [← toNat_headerLength, BitVec.ofNat_toNat, BitVec.setWidth_eq]

/-- R59 on fields: both bytes carry their fields whole. -/
theorem decHdr_le16_packHeader (t : MsgType) (l : MsgLength) : decHdr (le16 (packHeader t l)) = .ok (t, l) := by
  have ht := t.isLt
  have hl := l.isLt
  rw [le16_packHeader_eq_ofNat, decHdr_two]
  congr 2
  · apply BitVec.eq_of_toNat_eq
    rw [toNat_headerType, BitVec.toNat_ofNat]
    omega
  · apply BitVec.eq_of_toNat_eq
    rw [toNat_headerLength, BitVec.toNat_ofNat, BitVec.toNat_ofNat]
    omega

/-- R60 on fields: the type and the length hold every bit of the two bytes. -/
theorem le16_packHeader_decoded (b0 b1 : Byte) :
    le16 (packHeader (headerType b1) (headerLength b0 b1)) = [b0, b1] := by
  have h0 := b0.isLt
  have hlow : (b0.toNat + 256 * (b1.toNat % 32)) % 256 = b0.toNat := by omega
  have hhigh : 32 * (b1.toNat / 32) + (b0.toNat + 256 * (b1.toNat % 32)) / 256 = b1.toNat := by omega
  rw [le16_packHeader_eq_ofNat, toNat_headerType, toNat_headerLength, hlow, hhigh]
  simp

/-- Different fields give different bytes, decoding being a left inverse (R60). -/
theorem le16_packHeader_inj {t t' : MsgType} {l l' : MsgLength}
    (h : le16 (packHeader t l) = le16 (packHeader t' l')) : t = t' ∧ l = l' := by
  have hd := congrArg decHdr h
  rw [decHdr_le16_packHeader, decHdr_le16_packHeader] at hd
  exact Prod.mk.inj (Except.ok.inj hd)

end Sys2Proof.Machine
end

section
/-! The codec's operations as `exec` runs them: the response on accepted operands, and the frame. -/

namespace Sys2Proof.Safety

open Machine

theorem exec_eq_of_ruleResponse {i : Instr} {s : State} {r : Response} (h : ruleResponse s.params i = r) :
    exec i s = .next { s with response := some r } := by
  rw [exec_eq, h]

theorem exec_encHdr_toNat (t : MsgType) (l : MsgLength) (s : State) :
    exec (.encHdr t.toNat l.toNat) s = .next { s with response := some (.bytes (le16 (packHeader t l))) } :=
  exec_eq_of_ruleResponse (congrArg Response.ofResult (encHdr_toNat t l))

theorem exec_encHdr_out_of_range {t l : Int} (h : ¬ (0 ≤ t ∧ t ≤ 7 ∧ 0 ≤ l ∧ l ≤ 8191)) (s : State) :
    exec (.encHdr t l) s = .next { s with response := some (.error .invalidArgument) } :=
  exec_eq_of_ruleResponse (congrArg Response.ofResult (encHdr_error h))

theorem exec_decHdr_two (b0 b1 : Byte) (s : State) :
    exec (.decHdr [b0, b1]) s = .next { s with response := some (.header (headerType b1) (headerLength b0 b1)) } :=
  exec_eq_of_ruleResponse (congrArg headerResponse (decHdr_two b0 b1))

theorem exec_decHdr_le16_packHeader (t : MsgType) (l : MsgLength) (s : State) :
    exec (.decHdr (le16 (packHeader t l))) s = .next { s with response := some (.header t l) } :=
  exec_eq_of_ruleResponse (congrArg headerResponse (decHdr_le16_packHeader t l))

/-- Two runs from one state end alike only if they answer alike. -/
theorem response_eq_of_next_eq {s : State} {r r' : Response}
    (h : (Host.Outcome.next { s with response := some r } : Host.Outcome State Fault Refusal) =
      .next { s with response := some r' }) : r = r' :=
  Option.some.inj (congrArg State.response (Host.Outcome.next.inj h))

/-- The rule of every operation but BUILD_SET_STATE reads `STRICT_ENUMS` alone of the parameters (R6, R72). -/
theorem ruleResponse_eq_of_strictEnums_eq {p p' : Params} (hp : p.strictEnums = p'.strictEnums) {i : Instr}
    (hi : ∀ c m n, i ≠ .buildSetState c m n) : ruleResponse p i = ruleResponse p' i := by
  obtain ⟨strict, code⟩ := p
  obtain ⟨strict', code'⟩ := p'
  obtain rfl : strict = strict' := hp
  cases i with
  | buildSetState c m n => exact absurd rfl (hi c m n)
  | encHdr | decHdr | serCi | serState | serFreq | buildStop | buildSetFreq | reserved => rfl

end Sys2Proof.Safety
end

section
/-! The composition of R68 beyond its bound, and the builders on the operands of the source's examples. -/

namespace Sys2Proof.Machine

/-- The header of a command longer than 8191 bytes cannot be encoded (R57, R68). -/
theorem cmd_too_long (p : Params) (ci : BitVec 16) {block : Bytes} (h : 8191 < 4 + block.length) :
    cmd p ci block = .error .invalidArgument := by
  rw [cmd, encHdr_error (by omega)]

theorem forcedNumSamples_zero (p : Params) (m : Byte) : forcedNumSamples p m 0x00#8 = 0x00#8 := ite_self _

theorem serFreq_listed {p : Params} {c : Byte} (f : BitVec 64) (h : listedChannelId c = true) :
    serFreq p c f = .ok (c :: le40 (trunc40 f)) := by simp [serFreq, h]

/-- On a listed channel BUILD_SET_FREQ never raises (R74). -/
theorem buildSetFreq_listed {p : Params} {c : Byte} (f : BitVec 64) (h : listedChannelId c = true) :
    buildSetFreq p c f = .ok (0x0A#8 :: 0x00#8 :: 0x20#8 :: 0x00#8 :: c :: le40 (trunc40 f)) := by
  rw [buildSetFreq, serFreq_listed f h, command_ok, cmd_listed (by decide) (by simp)]
  simp [header_setFrequency, le16_setFrequency]

/-- 14010000 is 0xD5C690 (V-L1-5). -/
theorem le40_14010000 : le40 (trunc40 14010000#64) = [0x90#8, 0xC6#8, 0xD5#8, 0x00#8, 0x00#8] := by decide

end Sys2Proof.Machine
end

section
/-! The statements of spec/41_header_codec.md's family. -/

namespace Sys2Proof.Certificates

open Machine Safety

/-- Settles O25: the rules of the other operations do not read the code. -/
theorem onlyBuildSetStateReadsTheFifoCode : Obligations.OnlyBuildSetStateReadsTheFifoCode := by
  intro i s u hs hi
  exact ⟨ruleResponse s.params i, exec_eq i s, exec_eq_of_ruleResponse (ruleResponse_eq_of_strictEnums_eq hs.symm hi)⟩

/-- Settles O27: in range the operands are a header's fields, else a check raises. -/
theorem encHdrAnswers : Obligations.EncHdrAnswers := by
  refine ⟨fun _ => decode_encHdr, fun s t l => ?_⟩
  by_cases h : 0 ≤ t ∧ t ≤ 7 ∧ 0 ≤ l ∧ l ≤ 8191
  · rw [if_pos h]
    obtain ⟨ht0, ht7, hl⟩ := h
    obtain ⟨t, l, rfl, rfl⟩ := exists_fields ⟨ht0, ht7⟩ hl
    rw [exec_encHdr_toNat, le16_packHeader_eq_ofNat, ← BitVec.ofInt_natCast, ← BitVec.ofInt_natCast]
    push_cast
    rfl
  · rw [if_neg h, exec_encHdr_out_of_range h]

/-- Settles O28, by the number of bytes. -/
theorem decHdrAnswers : Obligations.DecHdrAnswers := by
  refine ⟨fun _ => decode_decHdr, fun s => ⟨fun b0 b1 => ?_, fun hdr hl => ?_⟩⟩
  · rw [exec_decHdr_two, headerType_eq_ofNat, headerLength_eq_ofNat]
  · exact exec_eq_of_ruleResponse (ruleResponse_decHdr_of_length_ne_two s.params hl)

/-- Settles O29: the operands are a header's fields, which decoding gives back. -/
theorem headerRoundTrip : Obligations.HeaderRoundTrip := by
  intro s t l ht0 ht7 hl0 hl
  obtain ⟨t, l, rfl, rfl⟩ := exists_fields ⟨ht0, ht7⟩ ⟨hl0, hl⟩
  exact ⟨le16 (packHeader t l), t, l, exec_encHdr_toNat t l s, exec_decHdr_le16_packHeader t l s, rfl, rfl⟩

/-- Settles O30: encoding the decoded fields gives the bytes back, and decoding makes encoding injective. -/
theorem headerConverseAndBijection : Obligations.HeaderConverseAndBijection := by
  refine fun s => ⟨fun b0 b1 => ?converse, fun t l ht0 ht7 hl0 hl => ?_⟩
  case converse =>
    refine ⟨headerType b1, headerLength b0 b1, exec_decHdr_two b0 b1 s, ?_⟩
    rw [exec_encHdr_toNat, le16_packHeader_decoded]
  obtain ⟨t, l, rfl, rfl⟩ := exists_fields ⟨ht0, ht7⟩ ⟨hl0, hl⟩
  refine ⟨⟨_, _, exec_encHdr_toNat t l s⟩, fun t' l' ht0' ht7' hl0' hl' h => ?injective⟩
  obtain ⟨t', l', rfl, rfl⟩ := exists_fields ⟨ht0', ht7'⟩ ⟨hl0', hl'⟩
  rw [exec_encHdr_toNat, exec_encHdr_toNat] at h
  obtain ⟨rfl, rfl⟩ := le16_packHeader_inj (Response.bytes.inj (response_eq_of_next_eq h))
  exact ⟨rfl, rfl⟩

/-- Settles O32: the verdict compares the decoded length, whose value the bytes give, with 2. -/
theorem consumerVerdictIgnoresTheType : Obligations.ConsumerVerdictIgnoresTheType := by
  refine fun s b0 b1 => ⟨_, exec_decHdr_two b0 b1 s, ?_⟩
  have hlen : headerLength b0 b1 = 2#13 ↔ b0.toNat + 256 * (b1.toNat % 32) = 2 := by
    rw [← toNat_headerLength, ← BitVec.toNat_inj]
    rfl
  rw [Response.consumerNak, beq_eq_decide, decide_eq_decide.mpr hlen]

/-- Settles O42: above the bound the header's check raises, within it both parts succeed. -/
theorem compositionChecksTheTotalLength : Obligations.CompositionChecksTheTotalLength := by
  refine fun p ci block => ⟨cmd_too_long p ci, fun hl hci => ?_⟩
  refine ⟨_, cmd_listed ((listedControlItem_iff ci).mpr hci) (by omega), ?_⟩
  simp only [List.length_append, length_le16]

/-- Settles O48, by each operation's rule on the vector's operands. -/
theorem sourceVectorsAnswer : Obligations.SourceVectorsAnswer := by
  intro s
  refine ⟨exec_eq_of_ruleResponse ?_, exec_eq_of_ruleResponse ?_, exec_eq_of_ruleResponse ?_,
    exec_encHdr_out_of_range (by decide) s, exec_encHdr_out_of_range (by decide) s,
    exec_decHdr_two 0x02#8 0x00#8 s, exec_decHdr_two 0x08#8 0x00#8 s⟩
  · rw [ruleResponse, buildSetState_eq, forcedNumSamples_zero]
    rfl
  · rw [ruleResponse, buildStop_eq]
    rfl
  · rw [ruleResponse, buildSetFreq_listed _ (by decide), le40_14010000]
    rfl

end Sys2Proof.Certificates
end

section
/-! The serializers' responses: the check on an enum operand as R63 to R65 state it, the bytes as arithmetic; what is read
of a frequency (R66) and of the parameters (R72). -/

namespace Sys2Proof.Machine

/-- The check of R67 on an operand with two listed members: it raises under `STRICT_ENUMS` on every other value. -/
theorem ofResult_check {listed strict : Bool} {n : Nat} {x a b : BitVec n} (h : listed = true ↔ x = a ∨ x = b)
    (e : ErrorCode) (bs : Bytes) :
    Response.ofResult (if !listed && strict then .error e else .ok bs) =
      if strict = true ∧ x ≠ a ∧ x ≠ b then .error e else .bytes bs := by
  have hraises : (!listed && strict) = true ↔ strict = true ∧ x ≠ a ∧ x ≠ b := by
    rw [Bool.and_eq_true, Bool.not_eq_true', ← Bool.not_eq_true, h, not_or, and_comm]
  rw [apply_ite Response.ofResult]
  exact if_congr hraises rfl rfl

/-- The low byte of R9 with the reduction modulo 256 written out. -/
theorem le16_eq_ofNat_mod (v : BitVec 16) :
    le16 v = [BitVec.ofNat 8 (v.toNat % 256), BitVec.ofNat 8 (v.toNat / 256)] := by
  rw [le16_eq]
  simp [← BitVec.toNat_inj]

/-- The five bytes of `freq mod 2^40` (R66). -/
theorem le40_trunc40_eq_ofNat (f : BitVec 64) :
    le40 (trunc40 f) = [BitVec.ofNat 8 (f.toNat % 2 ^ 40), BitVec.ofNat 8 (f.toNat % 2 ^ 40 / 2 ^ 8),
      BitVec.ofNat 8 (f.toNat % 2 ^ 40 / 2 ^ 16), BitVec.ofNat 8 (f.toNat % 2 ^ 40 / 2 ^ 24),
      BitVec.ofNat 8 (f.toNat % 2 ^ 40 / 2 ^ 32)] := by
  rw [le40_eq, toNat_trunc40]

theorem ofResult_serCi (p : Params) (ci : BitVec 16) :
    Response.ofResult (serCi p ci) =
      if p.strictEnums = true ∧ ci ≠ 0x0018#16 ∧ ci ≠ 0x0020#16 then .error .invalidArgument
      else .bytes (le16 ci) :=
  ofResult_check (listedControlItem_iff ci) _ _

theorem ofResult_serState (p : Params) (ch st ct n : Byte) :
    Response.ofResult (serState p ch st ct n) =
      if p.strictEnums = true ∧ st ≠ 0x01#8 ∧ st ≠ 0x02#8 then .error .invalidArgument
      else .bytes [ch, st, ct, n] :=
  ofResult_check (listedStateType_iff st) _ _

theorem ofResult_serFreq (p : Params) (c : Byte) (f : BitVec 64) :
    Response.ofResult (serFreq p c f) =
      if p.strictEnums = true ∧ c ≠ 0x00#8 ∧ c ≠ 0x02#8 then .error .invalidArgument
      else .bytes (c :: le40 (trunc40 f)) :=
  ofResult_check (listedChannelId_iff c) _ _

variable {f g : BitVec 64}

theorem trunc40_eq_of_mod_eq (h : f.toNat % 2 ^ 40 = g.toNat % 2 ^ 40) : trunc40 f = trunc40 g := by
  apply BitVec.eq_of_toNat_eq
  rw [toNat_trunc40, toNat_trunc40, h]

/-- SER_FREQ reads the frequency through its low 40 bits alone (R66). -/
theorem serFreq_eq_of_trunc40_eq (p : Params) (c : Byte) (h : trunc40 f = trunc40 g) : serFreq p c f = serFreq p c g := by
  rw [serFreq, h, serFreq]

/-- BUILD_SET_FREQ reads the frequency through SER_FREQ alone (R74). -/
theorem buildSetFreq_eq_of_trunc40_eq (p : Params) (c : Byte) (h : trunc40 f = trunc40 g) :
    buildSetFreq p c f = buildSetFreq p c g := by
  rw [buildSetFreq, serFreq_eq_of_trunc40_eq p c h, buildSetFreq]

/-- The forcing of R72 reads `CAPTURE_FIFO16` alone of the parameters. -/
theorem forcedNumSamples_eq_of_captureFifo16_eq {p p' : Params} (h : p.captureFifo16 = p'.captureFifo16) (m n : Byte) :
    forcedNumSamples p m n = forcedNumSamples p' m n := by
  rw [forcedNumSamples, h, forcedNumSamples]

end Sys2Proof.Machine
end

section
/-! `STRICT_ENUMS` decides the response on unlisted operands alone (R67). -/

namespace Sys2Proof.Safety

open Machine

/-- On listed operands the checks pass under both settings, and the builders' own members are listed (R67, R70, R73). -/
theorem ruleResponse_eq_of_listed {p p' : Params} (hp : p.captureFifo16 = p'.captureFifo16) {i : Instr}
    (hci : ∀ ci, i = .serCi ci → ci = 0x0018#16 ∨ ci = 0x0020#16)
    (hst : ∀ ch st ct n, i = .serState ch st ct n → st = 0x01#8 ∨ st = 0x02#8)
    (hch : ∀ c f, i = .serFreq c f ∨ i = .buildSetFreq c f → c = 0x00#8 ∨ c = 0x02#8) :
    ruleResponse p i = ruleResponse p' i := by
  cases i with
  | serCi ci =>
    have hlisted := (listedControlItem_iff ci).mpr (hci ci rfl)
    simp only [ruleResponse, serCi_listed hlisted]
  | serState ch st ct n =>
    have hlisted := (listedStateType_iff st).mpr (hst ch st ct n rfl)
    simp only [ruleResponse, serState_listed _ _ _ hlisted]
  | serFreq c f =>
    have hlisted := (listedChannelId_iff c).mpr (hch c f (.inl rfl))
    simp only [ruleResponse, serFreq_listed f hlisted]
  | buildSetFreq c f =>
    have hlisted := (listedChannelId_iff c).mpr (hch c f (.inr rfl))
    simp only [ruleResponse, buildSetFreq_listed f hlisted]
  | buildSetState c m n =>
    simp only [ruleResponse, buildSetState_eq, forcedNumSamples_eq_of_captureFifo16_eq hp]
  | buildStop => simp only [ruleResponse, buildStop_eq]
  | encHdr | decHdr | reserved => rfl

end Sys2Proof.Safety
end

section
/-! The statements of spec/42_item_and_parameter_serializers.md's family. -/

namespace Sys2Proof.Certificates

open Machine Safety

/-- Settles O26: on listed operands the rule's response is the same under both settings. -/
theorem listedMembersAgreeUnderBothSettings : Obligations.ListedMembersAgreeUnderBothSettings := by
  intro i s u hp hci hst hch
  exact ⟨ruleResponse s.params i, exec_eq i s, exec_eq_of_ruleResponse (ruleResponse_eq_of_listed hp.symm hci hst hch)⟩

/-- Settles O33, with the two bytes of the identifier as arithmetic. -/
theorem serCiAnswers : Obligations.SerCiAnswers := by
  refine ⟨fun _ => decode_serCi, fun s ci => exec_eq_of_ruleResponse ?_⟩
  rw [ruleResponse, ofResult_serCi, le16_eq_ofNat_mod]

/-- Settles O34, by the operation's rule. -/
theorem serStateAnswers : Obligations.SerStateAnswers :=
  ⟨fun _ => decode_serState, fun s ch st ct n => exec_eq_of_ruleResponse (ofResult_serState s.params ch st ct n)⟩

/-- Settles O35, with the five bytes of the truncated frequency as arithmetic. -/
theorem serFreqAnswers : Obligations.SerFreqAnswers := by
  refine ⟨fun _ => decode_serFreq, fun s c f => exec_eq_of_ruleResponse ?_⟩
  rw [ruleResponse, ofResult_serFreq, le40_trunc40_eq_ofNat]

/-- Settles O36: both operations read the frequency through its low 40 bits. -/
theorem frequencyBitsAbove40AreDiscarded : Obligations.FrequencyBitsAbove40AreDiscarded := by
  intro s c f g h
  have ht := trunc40_eq_of_mod_eq h
  constructor
  · rw [exec_eq, exec_eq, ruleResponse, serFreq_eq_of_trunc40_eq s.params c ht, ruleResponse]
  · rw [exec_eq, exec_eq, ruleResponse, buildSetFreq_eq_of_trunc40_eq s.params c ht, ruleResponse]

end Sys2Proof.Certificates
end

section
/-! The composition of R68 as an equation in the header's length field, and what it makes of each parameter block. -/

namespace Sys2Proof.Machine

variable {p : Params} {ci : BitVec 16} {block bs : Bytes}

/-- A total length within R57's bound is the value of a length field. -/
theorem exists_length_field (h : block.length ≤ 8187) : ∃ l : MsgLength, l.toNat = 4 + block.length :=
  ⟨BitVec.ofNat 13 (4 + block.length), by rw [BitVec.toNat_ofNat]; omega⟩

/-- Within the bound the composition fails with its control item alone (R68, R69). -/
theorem cmd_of_length {l : MsgLength} (hl : l.toNat = 4 + block.length) :
    cmd p ci block = (serCi p ci).map (le16 (packHeader 0#3 l) ++ · ++ block) := by
  have henc : encHdr HostCommand (4 + block.length) = .ok (le16 (packHeader 0#3 l)) := by
    have hfield := encHdr_toNat 0#3 l
    rw [hl] at hfield
    exact_mod_cast hfield
  rw [cmd, henc]
  cases serCi p ci <;> rfl

/-- A composition that succeeds starts with the header of type 0 and of its own length (R68). -/
theorem cmd_eq_ok (h : cmd p ci block = .ok bs) :
    ∃ (l : MsgLength) (rest : Bytes), bs = le16 (packHeader 0#3 l) ++ rest ∧ l.toNat = bs.length := by
  by_cases hlong : 8191 < 4 + block.length
  · exact nomatch (cmd_too_long p ci hlong).symm.trans h
  obtain ⟨l, hl⟩ := exists_length_field (block := block) (by omega)
  rw [cmd_of_length hl] at h
  obtain hci | hci := serCi_cases p ci <;> rw [hci] at h
  · obtain rfl := Except.ok.inj h
    refine ⟨l, le16 ci ++ block, List.append_assoc .., ?_⟩
    simp only [List.length_append, length_le16, hl]
  · exact nomatch h

/-- So does a command, which succeeds only with its parameter block's bytes (R75). -/
theorem command_eq_ok {r : Result} (h : command p ci r = .ok bs) :
    ∃ (l : MsgLength) (rest : Bytes), bs = le16 (packHeader 0#3 l) ++ rest ∧ l.toNat = bs.length := by
  cases r with
  | error e => exact nomatch h
  | ok block => exact cmd_eq_ok h

theorem ofResult_eq_bytes {r : Result} (h : Response.ofResult r = .bytes bs) : r = .ok bs := by
  cases r with
  | ok s => exact congrArg Except.ok (Response.bytes.inj h)
  | error e => exact nomatch h

/-- R71 with the value of complex data written out. -/
theorem channelType_eq (c : BitVec 1) : channelType c = if c = 1#1 then 0x80#8 else 0x00#8 := by
  simp only [channelType, DataComplex, beq_iff_eq]

/-- R72 as a choice between two propositions. -/
theorem forcedNumSamples_eq (p : Params) (m n : Byte) :
    forcedNumSamples p m n = if m = p.captureFifo16 then n else 0x00#8 := by
  simp only [forcedNumSamples, beq_iff_eq]

/-- A SET_FREQUENCY command around a 6-byte block (R47, R68). -/
theorem cmd_setFrequency (p : Params) (c : Byte) (v : BitVec 40) :
    cmd p SetFrequency (c :: le40 v) = .ok (0x0A#8 :: 0x00#8 :: 0x20#8 :: 0x00#8 :: c :: le40 v) := by
  rw [cmd_listed (by decide) (by simp)]
  simp [header_setFrequency, le16_setFrequency]

/-- BUILD_SET_FREQ makes SER_FREQ's check and no other (R74). -/
theorem ofResult_buildSetFreq (p : Params) (c : Byte) (f : BitVec 64) :
    Response.ofResult (buildSetFreq p c f) =
      if p.strictEnums = true ∧ c ≠ 0x00#8 ∧ c ≠ 0x02#8 then .error .invalidArgument
      else .bytes (0x0A#8 :: 0x00#8 :: 0x20#8 :: 0x00#8 :: c :: le40 (trunc40 f)) := by
  rw [buildSetFreq, serFreq, List.singleton_append, apply_ite (command p SetFrequency), command_error, command_ok,
    cmd_setFrequency]
  exact ofResult_check (listedChannelId_iff c) _ _

end Sys2Proof.Machine
end

section
/-! The builders as `exec` runs them, beside the operations they compose (R68, R75). -/

namespace Sys2Proof.Safety

open Machine

/-! The parameter block each builder's command carries (R70, R73, R74). -/

theorem ruleResponse_buildSetState (p : Params) (c : BitVec 1) (m n : Byte) :
    ruleResponse p (.buildSetState c m n) =
      .ofResult (command p SetState (serState p (channelType c) Run m (forcedNumSamples p m n))) := rfl

theorem ruleResponse_buildStop (p : Params) :
    ruleResponse p .buildStop = .ofResult (command p SetState (serState p 0x00#8 Idle 0x00#8 0x00#8)) := rfl

theorem ruleResponse_buildSetFreq (p : Params) (c : Byte) (f : BitVec 64) :
    ruleResponse p (.buildSetFreq c f) = .ofResult (command p SetFrequency (serFreq p c f)) := rfl

/-- An operation whose rule composes a command answers with a header that DEC_HDR decodes to type 0 and the answer's own
length (R75). -/
theorem exec_decHdr_of_command {i : Instr} {ci : BitVec 16} {r : Result} {s t : State} {bs : Bytes}
    (hi : ruleResponse s.params i = .ofResult (command s.params ci r)) (ht : exec i s = .next t)
    (hbs : t.response = some (.bytes bs)) :
    ∃ (b0 b1 : Byte) (rest : Bytes) (l : MsgLength), bs = b0 :: b1 :: rest ∧ l.toNat = bs.length ∧
      exec (.decHdr [b0, b1]) t = .next { t with response := some (.header 0#3 l) } := by
  rw [exec_eq_of_ruleResponse hi] at ht
  obtain rfl := Host.Outcome.next.inj ht
  obtain ⟨l, rest, hrest, hl⟩ := command_eq_ok (ofResult_eq_bytes (Option.some.inj hbs))
  exact ⟨_, _, rest, l, hrest, hl, exec_decHdr_le16_packHeader 0#3 l _⟩

/-- An operation `i` whose rule composes a command from the block `j` serializes answers ENC_HDR's, SER_CI's and `j`'s bytes
in this order, or `j`'s error (R68). -/
theorem exec_composes {i j : Instr} {ci : BitVec 16} {r : Result} {block : Bytes} {s : State}
    (hi : ruleResponse s.params i = .ofResult (command s.params ci r)) (hj : ruleResponse s.params j = .ofResult r)
    (hci : listedControlItem ci = true) (hr : r = .ok block ∨ r = .error .invalidArgument) (hlen : block.length ≤ 8187) :
    (∃ h c p, exec j s = .next { s with response := some (.bytes p) } ∧
      exec (.encHdr 0 (4 + p.length)) s = .next { s with response := some (.bytes h) } ∧
      exec (.serCi ci) s = .next { s with response := some (.bytes c) } ∧
      exec i s = .next { s with response := some (.bytes (h ++ c ++ p)) }) ∨
    ∃ e, exec j s = .next { s with response := some (.error e) } ∧
      exec i s = .next { s with response := some (.error e) } := by
  obtain rfl | rfl := hr
  · left
    obtain ⟨l, hl⟩ := exists_length_field hlen
    have henc := exec_encHdr_toNat 0#3 l s
    rw [hl] at henc
    rw [command_ok, cmd_of_length hl, serCi_listed hci] at hi
    exact ⟨_, _, block, exec_eq_of_ruleResponse hj, by exact_mod_cast henc,
      exec_eq_of_ruleResponse (congrArg Response.ofResult (serCi_listed hci)), exec_eq_of_ruleResponse hi⟩
  · right
    rw [command_error] at hi
    exact ⟨_, exec_eq_of_ruleResponse hj, exec_eq_of_ruleResponse hi⟩

end Sys2Proof.Safety
end

section
/-! The statements of spec/43_command_assembly.md's family. -/

namespace Sys2Proof.Certificates

open Machine Safety

/-- Settles O39: the header and the control item are constants, the check and the bytes are SER_FREQ's. -/
theorem buildSetFreqAnswers : Obligations.BuildSetFreqAnswers := by
  refine ⟨fun _ => decode_buildSetFreq, fun s c f => exec_eq_of_ruleResponse ?_⟩
  rw [ruleResponse, ofResult_buildSetFreq, le40_trunc40_eq_ofNat]

/-- Settles O40: each builder's rule composes a command, which starts with the header of its own length. -/
theorem builderHeaderStatesItsOwnLength : Obligations.BuilderHeaderStatesItsOwnLength := by
  intro i s t bs hi ht hbs
  obtain ⟨c, m, n, rfl⟩ | rfl | ⟨c, f, rfl⟩ := hi
  · exact exec_decHdr_of_command (ruleResponse_buildSetState s.params c m n) ht hbs
  · exact exec_decHdr_of_command (ruleResponse_buildStop s.params) ht hbs
  · exact exec_decHdr_of_command (ruleResponse_buildSetFreq s.params c f) ht hbs

/-- Settles O41: each builder's rule composes a command from the block that the listed serializer gives. -/
theorem buildersComposeTheOperations : Obligations.BuildersComposeTheOperations := by
  rintro s i j ci (⟨c, m, n, rfl, rfl, rfl⟩ | ⟨rfl, rfl, rfl⟩ | ⟨c, f, rfl, rfl, rfl⟩)
  · rw [← channelType_eq, ← forcedNumSamples_eq]
    exact exec_composes (ruleResponse_buildSetState s.params c m n) rfl (by decide) (serState_cases ..) (by simp)
  · exact exec_composes (ruleResponse_buildStop s.params) rfl (by decide) (serState_cases ..) (by simp)
  · exact exec_composes (ruleResponse_buildSetFreq s.params c f) rfl (by decide) (serFreq_cases ..) (by simp)

/-- Settles O37: the state type Run is listed, so the command is composed under both settings. -/
theorem buildSetStateAnswers : Obligations.BuildSetStateAnswers := by
  refine ⟨fun _ => decode_buildSetState, fun _ _ => decode_buildSetState rfl,
    fun s c m n => exec_eq_of_ruleResponse ?_⟩
  rw [ruleResponse, buildSetState_eq, channelType_eq, forcedNumSamples_eq]
  rfl

/-- Settles O38: the state type Idle is listed, so the command is composed under both settings. -/
theorem buildStopAnswers : Obligations.BuildStopAnswers :=
  ⟨fun _ => decode_buildStop, fun s => exec_eq_of_ruleResponse (congrArg Response.ofResult (buildStop_eq s.params))⟩

end Sys2Proof.Certificates
end

section
/-! The reserved selectors through the decoder: they alone choose the reserved operation, and no operand is read (R80). -/

namespace Sys2Proof

variable {q q' : Request}

/-- Only a reserved selector chooses the reserved operation (R50, R51). -/
theorem reserved_selector_of_decode {o : BitVec 4} (h : decode q = .reserved o) : 8 ≤ q.op.toNat := by
  have hop : q.canonical.op = q.op := by unfold Request.canonical; split <;> rfl
  have hwf := decode_wf q
  rw [← hop, ← encode_decode, h]
  rw [h] at hwf
  exact of_decide_eq_true hwf

/-- A reserved selector decodes alike under all operands (R80). -/
theorem decode_eq_of_reserved_selector (h : 8 ≤ q.op.toNat) (hop : q'.op = q.op) : decode q' = decode q := by
  rw [decode_reserved h, decode_reserved (by rwa [hop]), hop]

end Sys2Proof
end

section
/-! Where each error comes from: the operations that may raise it, and on which operands (spec/60_exceptions.md R77 to
R80). -/

namespace Sys2Proof.Safety

open Machine

variable {p : Params} {i : Instr}

/-- An operation raises only errors of its own row (R77). -/
theorem mem_errors_of_ruleResponse {e : ErrorCode} (h : ruleResponse p i = .error e) : e ∈ i.errors := by
  have hfits := fits_ruleResponse p i
  rwa [h] at hfits

theorem eq_decHdr_of_malformedFrame_mem_errors (h : .malformedFrame ∈ i.errors) : ∃ hdr, i = .decHdr hdr := by
  cases i with
  | decHdr hdr => exact ⟨hdr, rfl⟩
  | encHdr | serCi | serState | serFreq | buildSetState | buildStop | buildSetFreq | reserved =>
    simp [Instr.errors] at h

theorem eq_reserved_of_illegalOperation_mem_errors (h : .illegalOperation ∈ i.errors) : ∃ o, i = .reserved o := by
  cases i with
  | reserved o => exact ⟨o, rfl⟩
  | encHdr | decHdr | serCi | serState | serFreq | buildSetState | buildStop | buildSetFreq =>
    simp [Instr.errors] at h

/-- R79: two bytes are a header, any other number a malformed frame. -/
theorem ruleResponse_eq_malformedFrame_iff (p : Params) (i : Instr) :
    ruleResponse p i = .error .malformedFrame ↔ ∃ hdr : Bytes, i = .decHdr hdr ∧ hdr.length ≠ 2 := by
  constructor
  · intro h
    obtain ⟨hdr, rfl⟩ := eq_decHdr_of_malformedFrame_mem_errors (mem_errors_of_ruleResponse h)
    refine ⟨hdr, rfl, fun hl => ?_⟩
    obtain ⟨t, l, hheader⟩ := ruleResponse_decHdr_of_length_eq_two p hl
    exact nomatch hheader.symm.trans h
  · rintro ⟨hdr, rfl, hl⟩
    exact ruleResponse_decHdr_of_length_ne_two p hl

/-- R80: the reserved selectors raise IllegalOperation, and no other selector does. -/
theorem ruleResponse_decode_eq_illegalOperation_iff (p : Params) (q : Request) :
    ruleResponse p (decode q) = .error .illegalOperation ↔ 8 ≤ q.op.toNat := by
  constructor
  · intro h
    obtain ⟨o, ho⟩ := eq_reserved_of_illegalOperation_mem_errors (mem_errors_of_ruleResponse h)
    exact reserved_selector_of_decode ho
  · intro h
    rw [decode_reserved h, ruleResponse]

/-- R78: both range checks of ENC_HDR raise InvalidArgument. -/
theorem ruleResponse_encHdr_eq_invalidArgument_iff (p : Params) (t l : Int) :
    ruleResponse p (.encHdr t l) = .error .invalidArgument ↔ (t < 0 ∨ 7 < t) ∨ (l < 0 ∨ 8191 < l) := by
  by_cases h : 0 ≤ t ∧ t ≤ 7 ∧ 0 ≤ l ∧ l ≤ 8191
  · obtain ⟨ht0, ht7, hl⟩ := h
    rw [ruleResponse, encHdr_ok ⟨ht0, ht7⟩ hl]
    exact iff_of_false nofun (by omega)
  · rw [ruleResponse, encHdr_error h]
    exact iff_of_true rfl (by omega)

/-- An operation whose row lists no InvalidArgument raises none (R77). -/
theorem ruleResponse_ne_invalidArgument (h : .invalidArgument ∉ i.errors) :
    ruleResponse p i ≠ .error .invalidArgument :=
  fun he => h (mem_errors_of_ruleResponse he)

/-- What an operation's rule answers is what the block answers, and the operation completes (R85). -/
theorem exec_answers_error_iff {s : State} {e : ErrorCode} {c : Prop} (h : ruleResponse s.params i = .error e ↔ c) :
    ∃ t, exec i s = .next t ∧ (t.response = some (.error e) ↔ c) :=
  ⟨_, exec_eq i s, Option.some_inj.trans h⟩

end Sys2Proof.Safety
end

section
/-! The statements of spec/60_exceptions.md's family. -/

namespace Sys2Proof.Certificates

open Machine Safety

/-- Settles O16: each kind of step, a reset, an idle step and a transaction, answers a next state. -/
theorem everyStepAnswersANextState : Obligations.EveryStepAnswersANextState := by
  intro s
  obtain ⟨t, ht, -⟩ := step_keeps_params s
  exact ⟨t, ht⟩

/-- Settles O44, operation by operation: five have a check that raises the error, the other four never raise it. -/
theorem invalidArgumentInExactlyTheseCases : Obligations.InvalidArgumentInExactlyTheseCases := by
  refine fun i s => exec_answers_error_iff ?_
  cases i with
  | encHdr t l => simp [ruleResponse_encHdr_eq_invalidArgument_iff]
  | serCi ci => simp [ruleResponse, ofResult_serCi]
  | serState ch st ct n => simp [ruleResponse, ofResult_serState]
  | serFreq c f => simp [ruleResponse, ofResult_serFreq]
  | buildSetFreq c f => simp [ruleResponse, ofResult_buildSetFreq]
  | decHdr | buildSetState | buildStop | reserved =>
    simp [ruleResponse_ne_invalidArgument, Instr.errors]

/-- Settles O45: only DEC_HDR may raise the error, and on two bytes it answers a header. -/
theorem malformedFrameInExactlyOneCase : Obligations.MalformedFrameInExactlyOneCase :=
  fun i s => exec_answers_error_iff (ruleResponse_eq_malformedFrame_iff s.params i)

/-- Settles O46: only the reserved operation may raise the error, and its selector reads no operand. -/
theorem illegalOperationInExactlyOneCase : Obligations.IllegalOperationInExactlyOneCase := by
  intro q s
  obtain ⟨t, ht, herr⟩ := exec_answers_error_iff (ruleResponse_decode_eq_illegalOperation_iff s.params q)
  refine ⟨t, ht, herr, fun q' hres hop => ?_⟩
  rw [decode_eq_of_reserved_selector hres hop, ht]

end Sys2Proof.Certificates
end

section
/-! Reset and idle steps, the step that answers the only waiting request, and a run that no request joins (R91 to R93,
R98). -/

namespace Sys2Proof.Safety

open Machine

variable {s : State}

theorem step_reset (hr : s.resetLine = true) : step s = .next s.takeReset := if_pos hr

theorem step_idle (hr : s.resetLine = false) (hp : s.pending = []) : step s = .next s := by
  simp [step, hr, hp]

/-- The only waiting request gets its rule's response, whatever else the state holds (R14, R20). -/
theorem step_answers_only {q : Request} (hr : s.resetLine = false) (hp : s.pending = [q]) :
    ∃ t, step s = .next t ∧ t.response = some (ruleResponse s.params (decode q)) :=
  ⟨_, (Certificates.stepRunsTheDecodedRequest s q hr hp).trans (exec_eq _ _), rfl⟩

/-- Each step leaves one request less, so as many steps as requests wait leave none (R98). -/
theorem run_empties_pending {n : Nat} (hr : s.resetLine = false) (hn : s.pending.length = n) :
    ∃ t, core.run n s = .next t ∧ t.pending = [] := by
  induction n generalizing s with
  | zero => exact ⟨s, rfl, List.length_eq_zero_iff.mp hn⟩
  | succ n ih =>
    obtain ⟨q, r, t, ht, hperm, -, -, -, -, -, hrt⟩ :=
      Certificates.everyStepAnswersExactlyOneWaitingRequest s hr (List.ne_nil_of_length_eq_add_one hn)
    rw [run_succ ht]
    exact ih hrt (Nat.succ.inj (hperm.length_eq.trans hn))

end Sys2Proof.Safety
end

section
/-! One waiting request followed through a stream of arrivals: each round answers it, or brings it nearer to the front, or
spends patience of the oldest (R98; log entry 4). -/

namespace Sys2Proof.Safety

open Machine

variable {s : State} {arrivals : Nat → List Request} {j : Nat}

/-- The place of a request after the one at place `k` was taken, as `AnsweredWithin` follows it. -/
def placeAfter (k j : Nat) : Nat := if k < j then j - 1 else j

/-- A request that was not taken still waits. -/
theorem placeAfter_lt_length_eraseIdx {l : List Request} {k : Nat} (hj : j < l.length) (hk : k < l.length) (hne : k ≠ j) :
    placeAfter k j < (l.eraseIdx k).length := by
  rw [List.length_eraseIdx_of_lt hk, placeAfter]
  split <;> omega

/-- A request that another one overtakes keeps its place, and the oldest, which is overtaken too, loses patience. -/
theorem patienceAfter_serviceIndex_lt (h : j < s.serviceIndex) : s.patienceAfter s.serviceIndex < s.patience := by
  have hk : s.serviceIndex ≠ 0 := by omega
  have hpat : s.patience ≠ 0 := fun h0 => hk (serviceIndex_eq_zero h0)
  rw [State.patienceAfter_bypass hk]
  omega

/-- The step serves the request at `s.serviceIndex`: what `AnsweredWithin` asks of it, and what is left of the patience. -/
theorem step_serves (hr : s.resetLine = false) (hp : s.pending ≠ []) :
    ∃ q t, s.pending[s.serviceIndex]? = some q ∧ step s = .next t ∧ t.pending = s.pending.eraseIdx s.serviceIndex ∧
      t.request = some q ∧ t.response = some (ruleResponse s.params (decode q)) ∧
      t.resetLine = false ∧ t.patience = s.patienceAfter s.serviceIndex := by
  obtain ⟨q, hq, hstep⟩ := step_transaction hr hp
  exact ⟨q, _, hq, hstep.trans (exec_eq _ _), rfl, rfl, rfl, hr, rfl⟩

/-- One round, arrivals and step: it answers the request at place `j`, or that request waits on, nearer to the front or with
less patience left before it. -/
theorem answeredWithin_succ_cases (hr : s.resetLine = false) (hj : j < s.pending.length)
    (arrivals : Nat → List Request) :
    (∀ n, AnsweredWithin (n + 1) arrivals j s) ∨
    ∃ i t, t.resetLine = false ∧ i < t.pending.length ∧ (i < j ∨ i = j ∧ t.patience < s.patience) ∧
      ∀ n, AnsweredWithin n (fun m => arrivals (m + 1)) i t → AnsweredWithin (n + 1) arrivals j s := by
  have hju : j < (s.issueAll (arrivals 0)).pending.length := by
    rw [State.issueAll_pending, List.length_append]
    omega
  have hne := List.ne_nil_of_length_pos (Nat.zero_lt_of_lt hju)
  obtain ⟨q, t, hq, hstep, hpending, hreq, hresp, hrt, hpat⟩ :=
    step_serves ((s.issueAll_resetLine _).trans hr) hne
  have hanswers := answers_ruleResponse s.params (decode q)
  rw [State.issueAll_params] at hresp
  by_cases hk : (s.issueAll (arrivals 0)).serviceIndex = j
  · exact .inl fun n => ⟨q, _, t, hq, hstep, hpending, hreq, hresp, hanswers, .inl hk⟩
  · refine .inr ⟨placeAfter _ j, t, hrt, ?_, ?_,
      fun n hn => ⟨q, _, t, hq, hstep, hpending, hreq, hresp, hanswers, .inr hn⟩⟩
    · rw [hpending]
      exact placeAfter_lt_length_eraseIdx hju (serviceIndex_lt hne) hk
    · obtain hlt | hgt := Nat.lt_or_gt_of_ne hk
      · left
        rw [placeAfter, if_pos hlt]
        omega
      · right
        have hspent := patienceAfter_serviceIndex_lt hgt
        rw [← hpat, State.issueAll_patience] at hspent
        exact ⟨if_neg hgt.not_gt, hspent⟩

/-- Nothing is nearer to the front than the oldest, so each round that does not answer it spends patience. -/
theorem oldest_answeredWithin {p : Nat} (hp : s.patience ≤ p) (hr : s.resetLine = false) (h0 : 0 < s.pending.length) :
    AnsweredWithin (p + 1) arrivals 0 s := by
  induction p generalizing s arrivals with
  | zero =>
    obtain h | ⟨i, t, -, -, hi, -⟩ := answeredWithin_succ_cases hr h0 arrivals
    · exact h 0
    · omega
  | succ p ih =>
    obtain h | ⟨i, t, hrt, hit, hi, hnext⟩ := answeredWithin_succ_cases hr h0 arrivals
    · exact h _
    · obtain ⟨rfl, hlt⟩ : i = 0 ∧ t.patience < s.patience := by omega
      exact hnext _ (ih (by omega) hrt hit)

/-- The pair of the place and the oldest request's patience falls lexicographically until the request is answered. -/
theorem exists_answeredWithin (s : State) (arrivals : Nat → List Request) (j : Nat) (hr : s.resetLine = false)
    (hj : j < s.pending.length) : ∃ n, AnsweredWithin n arrivals j s := by
  obtain h | ⟨i, t, hrt, hit, hi, hnext⟩ := answeredWithin_succ_cases hr hj arrivals
  · exact ⟨1, h 0⟩
  · obtain ⟨n, hn⟩ := exists_answeredWithin t (fun m => arrivals (m + 1)) i hrt hit
    exact ⟨n + 1, hnext n hn⟩
termination_by (j, s.patience)
decreasing_by exact Prod.lex_def.mpr hi

end Sys2Proof.Safety
end

section
/-! The statements of spec/70_reset_and_hazards.md's family. -/

namespace Sys2Proof.Certificates

open Machine Safety

/-- Settles O11: in both states the request is the only one waiting, and its rule reads the parameters alone. -/
theorem firstRequestAfterResetAnswersAlike : Obligations.FirstRequestAfterResetAnswersAlike := by
  intro s u q hs hparams hu hq
  obtain ⟨t', ht', hr'⟩ := step_answers_only (s := s.takeReset.issue q) (q := q) rfl rfl
  obtain ⟨u', hu', hru'⟩ := step_answers_only hu hq
  rw [hparams] at hru'
  exact ⟨_, t', u', _, step_reset hs, ht', hu', hr', hru'⟩

/-- Settles O18: the run empties the list, and its transactions are the waiting requests, permuted. -/
theorem waitingRequestsAreAllAnswered : Obligations.WaitingRequestsAreAllAnswered := by
  intro s hr
  obtain ⟨t, ht, hempty⟩ := run_empties_pending hr rfl
  obtain ⟨hperm, -⟩ := overlappingRequestsEachGetTheirOwnResponse s hr
  exact ⟨t, ht, hempty, hperm⟩

/-- Settles O21, by induction on a bound of the patience. -/
theorem oldestRequestIsPassedOverAtMostItsPatience : Obligations.OldestRequestIsPassedOverAtMostItsPatience :=
  fun _ _ hr hp => oldest_answeredWithin le_rfl hr (List.length_pos_of_ne_nil hp)

/-- Settles O22, by lexicographic induction on the request's place and the oldest request's patience. -/
theorem everyWaitingRequestIsAnsweredDespiteNewOnes : Obligations.EveryWaitingRequestIsAnsweredDespiteNewOnes :=
  exists_answeredWithin

/-- Settles O10: such steps are no transactions. -/
theorem resetAndIdleStepsAnswerNothing : Obligations.ResetAndIdleStepsAnswerNothing :=
  fun _ => ⟨step_reset, step_idle⟩

end Sys2Proof.Certificates
end
